-- ==== Sys2Proof/Word.lean ====
section
/-! DEFINITION. The widths of the spec's words and the plainest bit operations on them (00_scope.md R5). -/

namespace Sys2Proof

/-- A segment byte or a select byte (20_memory.md R54). -/
abbrev Byte := BitVec 8

/-- The input word `IW`: sys_rst, refresh_tick, sec_tick, rst_btn_n, mode_btn_n in bits 4 to 0 (30_encoding.md R70). -/
abbrev InputWord := BitVec 5

/-- The condition vector `CV`, `HHH Q P R F S B M` from bit 9 to bit 0 (30_encoding.md R71). -/
abbrev CondVector := BitVec 10

/-- The stimulus word `SW`, mv_in in bits 18 to 5 and IW in bits 4 to 0 (30_encoding.md R70). -/
abbrev StimWord := BitVec 19

/-- A 1-bit level as a one-bit word: `true` is 1. -/
abbrev bit (b : Bool) : BitVec 1 := BitVec.ofBool b

end Sys2Proof
end

