-- ==== Sys2Proof/Syntax.lean ====
section
/-! DEFINITION. The operations of the block, one constructor per row of spec/opcode_table.json, the formats they are read
from (30_encoding.md R70 to R72) and the stimulus syntax (30_encoding.md R82). -/

namespace Sys2Proof

/-- An operation (30_encoding.md R77). The fifteen CV operations have no operand of their own: they read the ports and the
registers of the cycle they fire in. The combinational functions carry their operands (R72). -/
inductive Instr where
  /-- SYS_RESET (70_reset_and_hazards.md R220). -/
  | sysReset
  /-- MODE_SAMPLE (43_timebase_mode.md R166). -/
  | modeSample
  /-- RST_EDGE (43_timebase_mode.md R161). -/
  | rstEdge
  /-- TB_RESET (43_timebase_mode.md R162). -/
  | tbReset
  /-- TB_TICK (43_timebase_mode.md R163). -/
  | tbTick
  /-- REFRESH_REQ (42_multiplexer.md R130). -/
  | refreshReq
  /-- MUX_SERVICE (42_multiplexer.md R132). -/
  | muxService
  /-- SER_IDLE (41_serializer.md R111). -/
  | serIdle
  /-- SER_SETUP (41_serializer.md R113). -/
  | serSetup
  /-- SER_CLKHI (41_serializer.md R114). -/
  | serClkhi
  /-- SER_LATLO (41_serializer.md R115). -/
  | serLatlo
  /-- SER_LATHI (41_serializer.md R116). -/
  | serLathi
  /-- RESERVED_PHASE_5 (30_encoding.md R79). -/
  | reservedPhase5
  /-- RESERVED_PHASE_6 (30_encoding.md R79). -/
  | reservedPhase6
  /-- RESERVED_PHASE_7 (30_encoding.md R79). -/
  | reservedPhase7
  /-- ENCODE(d, sup) (40_encoder_selector.md R91). -/
  | encode (d : BitVec 4) (sup : Bool)
  /-- RESERVED_ENC_D10_11_14_15: ENCODE outside its contract (40_encoder_selector.md R93). -/
  | reservedEncD10111415 (d : BitVec 4) (sup : Bool)
  /-- RESERVED_ENC_D12_13_14_15: ENCODE outside its contract (40_encoder_selector.md R93). -/
  | reservedEncD12131415 (d : BitVec 4) (sup : Bool)
  /-- SELECT(p) (40_encoder_selector.md R96). -/
  | select (p : BitVec 2)
  /-- CLOCK_DIGITS(slot, tv) (42_multiplexer.md R135). -/
  | clockDigits (slot : BitVec 2) (tv : BitVec 13)
  /-- VOLT_DIGITS(slot, mv) (42_multiplexer.md R136). -/
  | voltDigits (slot : BitVec 2) (mv : BitVec 14)
  /-- CLAMP_MV(v) (42_multiplexer.md R137). -/
  | clampMv (mv : BitVec 14)
  /-- SER_START(seg, sel) (41_serializer.md R112). -/
  | serStart (seg : Byte) (sel : Byte)
  deriving DecidableEq, Repr

/-- The operation groups (30_encoding.md R74). -/
inductive Group where
  | reset | mode | edge | time | req | ser
  deriving DecidableEq, Repr

/-- The formats of 30_encoding.md R71 and R72. -/
inductive Format where
  | cv | enc | sel | tvd | mvd | mv
  deriving DecidableEq, Repr

/-- An operand word of a combinational function, in its format (30_encoding.md R72). -/
inductive CallWord where
  | enc (w : BitVec 5)
  | sel (w : BitVec 2)
  | tvd (w : BitVec 15)
  | mvd (w : BitVec 16)
  | mv (w : BitVec 14)
  deriving DecidableEq, Repr

/-- A word that names operations: a condition vector, a combinational call, or SER_START's two operand bytes (which the
table gives no bits: it is "called by MUX_SERVICE"). -/
inductive TableWord where
  | cv (w : CondVector)
  | call (w : CallWord)
  | start (seg sel : Byte)
  deriving DecidableEq, Repr

/-- One entry of the stimulus queue, consumed by one step: a clock cycle with its stimulus word (30_encoding.md R70), or a
combinational function evaluated on its own (log 7). -/
inductive Stimulus where
  | cycle (sw : StimWord)
  | call (w : CallWord)
  deriving DecidableEq, Repr

/-- The named input words of 30_encoding.md R82. -/
inductive NamedWord where
  | rst | rstv | nop | nopv | sec | secv | ref | refv | secref | prb | prbsec
  deriving DecidableEq, Repr

/-- A line of a stimulus program (30_encoding.md R82): `CYC <iw> [mv=<n>] [xN]`, a named form with its count, or a
pseudo-instruction. A line without `xN` has count 1. -/
inductive StimLine where
  | cyc (iw : InputWord) (mv : Option (BitVec 14)) (count : Nat)
  | named (m : NamedWord) (count : Nat)
  | frame
  | framev
  | wait (count : Nat)
  deriving DecidableEq, Repr

end Sys2Proof
end

