-- ==== Sys2Proof/WellFormed.lean ====
section
/-! DEFINITION. Which terms of `Instr` are the reading of some word: the three ENC rows share one format and split its digit
values among them (40_encoder_selector.md R91 and R93); every other operand value of every other row is encodable. -/

namespace Sys2Proof

/-- The operands an instruction may carry. A word with digit 14 or 15 matches both reserved ENC rows; the table's first row
takes it (log 14), so the second is well formed for 12 and 13. -/
def Instr.wellFormed : Instr → Bool
  | .encode d _ => decide (d.toNat ≤ 9)
  | .reservedEncD10111415 d _ => decide (d.toNat = 10 ∨ d.toNat = 11 ∨ d.toNat = 14 ∨ d.toNat = 15)
  | .reservedEncD12131415 d _ => decide (d.toNat = 12 ∨ d.toNat = 13)
  | .sysReset | .modeSample | .rstEdge | .tbReset | .tbTick | .refreshReq | .muxService => true
  | .serIdle | .serSetup | .serClkhi | .serLatlo | .serLathi => true
  | .reservedPhase5 | .reservedPhase6 | .reservedPhase7 => true
  | .select _ | .clockDigits _ _ | .voltDigits _ _ | .clampMv _ | .serStart _ _ => true

end Sys2Proof
end

