-- ==== Sys2Proof/Decode.lean ====
section
/-! DEFINITION. The decoder (30_encoding.md R70 to R79), the encoder written from the same formats, the reading of a table
word that carries no format, and the stimulus assembler (30_encoding.md R82). -/

namespace Sys2Proof

/-- Why a number is no word of a format. -/
inductive Reject where
  /-- The number needs more bits than the format has. -/
  | tooWide (f : Format)
  deriving DecidableEq, Repr

/-- One CV row of the operation map (30_encoding.md R77). -/
structure CvRow where
  op : Instr
  group : Group
  mask : CondVector
  pattern : CondVector
  deriving DecidableEq, Repr

/-- The row's pattern holds of a condition vector. -/
def CvRow.hits (r : CvRow) (cv : CondVector) : Bool := (cv &&& r.mask) == r.pattern

/-- The operation map, in the order of 30_encoding.md R77, with the reserved phases of R79. Within a group the first row that
matches fires (R74), which gives TB_RESET its priority over TB_TICK (R75). -/
def cvRows : List CvRow :=
  [ ⟨.sysReset, .reset, 0x010, 0x010⟩,
    ⟨.modeSample, .mode, 0x010, 0x000⟩,
    ⟨.rstEdge, .edge, 0x010, 0x000⟩,
    ⟨.tbReset, .time, 0x032, 0x020⟩,
    ⟨.tbTick, .time, 0x014, 0x004⟩,
    ⟨.refreshReq, .req, 0x018, 0x008⟩,
    ⟨.muxService, .ser, 0x3D0, 0x040⟩,
    ⟨.serIdle, .ser, 0x3D0, 0x000⟩,
    ⟨.serSetup, .ser, 0x390, 0x080⟩,
    ⟨.serClkhi, .ser, 0x390, 0x100⟩,
    ⟨.serLatlo, .ser, 0x390, 0x180⟩,
    ⟨.serLathi, .ser, 0x390, 0x200⟩,
    ⟨.reservedPhase5, .ser, 0x390, 0x280⟩,
    ⟨.reservedPhase6, .ser, 0x390, 0x300⟩,
    ⟨.reservedPhase7, .ser, 0x390, 0x380⟩ ]

/-- The operation a group fires on a condition vector, or none: the group holds (30_encoding.md R74). -/
def firedIn (g : Group) (cv : CondVector) : Option Instr :=
  (cvRows.find? fun r => decide (r.group = g) && r.hits cv).map CvRow.op

/-- The operations a cycle fires (30_encoding.md R74): SYS_RESET alone when it fires, else one per group. -/
def fired (cv : CondVector) : List Instr :=
  match firedIn .reset cv with
  | some i => [i]
  | none => [Group.mode, .edge, .time, .req, .ser].filterMap (firedIn · cv)

/-- The function an operand word calls (30_encoding.md R72). The reserved ENC rows come before ENCODE, in the table's order. -/
def decodeCall : CallWord → Instr
  | .enc w =>
    if w &&& 0x0A = 0x0A then .reservedEncD10111415 (w.extractLsb' 0 4) (w.getLsbD 4)
    else if w &&& 0x0C = 0x0C then .reservedEncD12131415 (w.extractLsb' 0 4) (w.getLsbD 4)
    else .encode (w.extractLsb' 0 4) (w.getLsbD 4)
  | .sel w => .select w
  | .tvd w => .clockDigits (w.extractLsb' 13 2) (w.extractLsb' 0 13)
  | .mvd w => .voltDigits (w.extractLsb' 14 2) (w.extractLsb' 0 14)
  | .mv w => .clampMv w

/-- The operations a word names. Total: every bit pattern of every format has a meaning or a reserved row. -/
def decode : TableWord → List Instr
  | .cv w => fired w
  | .call w => [decodeCall w]
  | .start seg sel => [.serStart seg sel]

/-- How many bits a format has (30_encoding.md R71 and R72). -/
def Format.width : Format → Nat
  | .cv => 10
  | .enc => 5
  | .sel => 2
  | .tvd => 15
  | .mvd => 16
  | .mv => 14

/-- A number as a word of a format, rejected by name when it does not fit. -/
def readWord (f : Format) (n : Nat) : Except Reject TableWord :=
  if n < 2 ^ f.width then
    .ok <| match f with
      | .cv => .cv (BitVec.ofNat 10 n)
      | .enc => .call (.enc (BitVec.ofNat 5 n))
      | .sel => .call (.sel (BitVec.ofNat 2 n))
      | .tvd => .call (.tvd (BitVec.ofNat 15 n))
      | .mvd => .call (.mvd (BitVec.ofNat 16 n))
      | .mv => .call (.mv (BitVec.ofNat 14 n))
  else .error (.tooWide f)

/-- The operations a number of a format names. -/
def decodeNumber (f : Format) (n : Nat) : Except Reject (List Instr) := (readWord f n).map decode

/-- The word of an instruction, from 30_encoding.md R72 and R77: of a CV operation, the condition vector with exactly its
fixed bits set; of a function, its operands in its format. -/
def encode : Instr → TableWord
  | .sysReset => .cv 0x010
  | .modeSample => .cv 0x000
  | .rstEdge => .cv 0x000
  | .tbReset => .cv 0x020
  | .tbTick => .cv 0x004
  | .refreshReq => .cv 0x008
  | .muxService => .cv 0x040
  | .serIdle => .cv 0x000
  | .serSetup => .cv 0x080
  | .serClkhi => .cv 0x100
  | .serLatlo => .cv 0x180
  | .serLathi => .cv 0x200
  | .reservedPhase5 => .cv 0x280
  | .reservedPhase6 => .cv 0x300
  | .reservedPhase7 => .cv 0x380
  | .encode d sup => .call (.enc (bit sup ++ d))
  | .reservedEncD10111415 d sup => .call (.enc (bit sup ++ d))
  | .reservedEncD12131415 d sup => .call (.enc (bit sup ++ d))
  | .select p => .call (.sel p)
  | .clockDigits slot tv => .call (.tvd (slot ++ tv))
  | .voltDigits slot mv => .call (.mvd (slot ++ mv))
  | .clampMv mv => .call (.mv mv)
  | .serStart seg sel => .start seg sel

/-- The format a table word without a format is read in (log 13): no bits are SER_START with operands of zeros; up to eight
bits are an ENC word where they fit one and match a reserved ENC row, else the low bits of a condition vector; more are a
condition vector, rejected where they do not fit one. -/
def untaggedWord (nbits w : Nat) : Option TableWord :=
  if nbits = 0 then
    if w = 0 then some (.start 0 0) else none
  else if 2 ^ nbits ≤ w then none
  else if nbits ≤ 8 ∧ w < 32 ∧ (w &&& 0x0A = 0x0A ∨ w &&& 0x0C = 0x0C) then some (.call (.enc (BitVec.ofNat 5 w)))
  else (readWord .cv w).toOption

/-- Which of the operations a word names stands for the word (log 13): SYS_RESET, the TIME operation or the REQ operation if
one fires; else, of a word that reaches the phase bits, the SER operation; else the first. -/
def representative (nbits : Nat) (ops : List Instr) : Option Instr :=
  match ops.find? (fun i => decide (i ∈ [Instr.tbReset, .tbTick, .refreshReq])) with
  | some i => some i
  | none => if 8 < nbits then ops.getLast? else ops.head?

/-- The instruction this decoder reads from a word numbered as spec/opcode_table.json numbers it (log 13). -/
def decodeTableWord (nbits w : Nat) : Option Instr :=
  (untaggedWord nbits w).bind fun t => representative nbits (decode t)

/-- The input word of a named form (30_encoding.md R82). -/
def NamedWord.iw : NamedWord → InputWord
  | .rst => 0x13
  | .rstv => 0x12
  | .nop => 0x03
  | .nopv => 0x02
  | .sec => 0x07
  | .secv => 0x06
  | .ref => 0x0B
  | .refv => 0x0A
  | .secref => 0x0F
  | .prb => 0x01
  | .prbsec => 0x05

/-- The stimulus word of an input word and a millivolt value, `SW = (mv_in, IW)` (30_encoding.md R70). -/
def stimWord (mv : BitVec 14) (iw : InputWord) : StimWord := mv ++ iw

/-- The millivolt value from a line on, and the input words of its cycles (30_encoding.md R82). -/
def StimLine.expand (mv : BitVec 14) : StimLine → BitVec 14 × List InputWord
  | .cyc iw mv' count => (mv'.getD mv, List.replicate count iw)
  | .named m count => (mv, List.replicate count m.iw)
  | .frame => (mv, NamedWord.ref.iw :: List.replicate 35 NamedWord.nop.iw)
  | .framev => (mv, NamedWord.refv.iw :: List.replicate 35 NamedWord.nopv.iw)
  | .wait count => (mv, List.replicate count NamedWord.nop.iw)

/-- The stimulus words of a program whose `mv_in` is `mv` on entry. -/
def assembleFrom (mv : BitVec 14) : List StimLine → List StimWord
  | [] => []
  | l :: ls => (l.expand mv).2.map (stimWord (l.expand mv).1) ++ assembleFrom (l.expand mv).1 ls

/-- The stimulus words of a program: before any `mv=`, `mv_in` is 0 (30_encoding.md R82). -/
def assemble (ls : List StimLine) : List StimWord := assembleFrom 0 ls

end Sys2Proof
end

