-- ==== Sys2Proof/Config.lean ====
section
/-! DEFINITION. What a build of the block fixes (the parameters of 00_scope.md R3 and R4) and the values the spec leaves
free. A free value is an opaque constant: no proof can see what it is, so a claim holds whatever it is. -/

namespace Sys2Proof.Config

/-- The parameters a model takes as arguments (00_scope.md R4). They are fixed when the block is built and no rule writes
them (10_state.md R41). F_CLK and T_W_MIN are the arguments of `Safety.pulseWidthOk`: no rule of the step reads them. -/
structure Params where
  /-- SEG_TABLE: digit to segment pattern (40_encoder_selector.md R90). -/
  segTable : Vector Byte 10
  /-- SEL_TABLE: position to select byte (40_encoder_selector.md R95). -/
  selTable : Vector Byte 4
  /-- ENABLE_BIT: which bit of a select byte, at 0, enables digit q (40_encoder_selector.md R97). -/
  enableBit : Vector (BitVec 3) 4
  /-- DP_FORCE: the level bit 7 is forced to on suppression (40_encoder_selector.md R92). -/
  dpForce : Bool
  deriving DecidableEq, Repr

/-- FREE VALUE (log 8): what ENCODE answers for a digit 10 to 15, "an unconstrained 8-bit draw" (40_encoder_selector.md
R93). It is a function of the operands because ENCODE is pure (R94). -/
opaque encodeOutside : BitVec 4 → Bool → Byte

/-- FREE VALUE (log 9, DESIGN CHOICE): the digit VOLT_DIGITS answers for a slot and an mv above 9999, for which the spec
states no result (30_encoding.md R79, 42_multiplexer.md R136). -/
opaque voltDigitOutside : BitVec 2 → BitVec 14 → BitVec 4

/-- FREE VALUE (log 3, DESIGN CHOICE): the stimulus word of a cycle for which the queue in State holds none. -/
opaque freeStimulus : Nat → StimWord

end Sys2Proof.Config
end

