-- ==== Sys2Proof/Machine/Tables.lean ====
section
/-! DEFINITION. The default parameters and the fixed numbers of 00_scope.md R3. -/

namespace Sys2Proof.Machine.Tables

/-- SEG_TABLE's default (40_encoder_selector.md R90). Entries 0 and 8 are the source's; the other eight are PRESUMED, the
spec's "from general knowledge, not in source" (log 10). -/
def segTable : Vector Byte 10 := #v[0xC0, 0xF9, 0xA4, 0xB0, 0x99, 0x92, 0x82, 0xF8, 0x80, 0x90]

/-- SEL_TABLE's default (40_encoder_selector.md R95). -/
def selTable : Vector Byte 4 := #v[0xFE, 0xFD, 0xFB, 0xF7]

/-- ENABLE_BIT's default, ENABLE_BIT(q) = q (00_scope.md R3). -/
def enableBit : Vector (BitVec 3) 4 := #v[0, 1, 2, 3]

/-- DP_FORCE's default (00_scope.md R3, 90_conflicts.md C2). -/
def dpForce : Bool := false

/-- The parameters at their defaults (00_scope.md R4). -/
def defaults : Config.Params := ⟨segTable, selTable, enableBit, dpForce⟩

/-- The last TimeValue before the wrap to 0 at TV_MOD = 6000 (00_scope.md R3). -/
def tvLast : Nat := 5999

/-- MV_MAX, the millivolt clamp ceiling (00_scope.md R3). -/
def mvMax : Nat := 9999

/-- SER_CYCLES, the clock cycles of one transfer after its start cycle (00_scope.md R3). -/
def serCycles : Nat := 34

end Sys2Proof.Machine.Tables
end

