-- ==== Sys2Proof/Machine/State.lean ====
section
/-! DEFINITION. The state of the block, its ports, the reference receiver, the build parameters and the stimulus queue
(10_state.md R20 to R42, 60_exceptions.md R198), the state after reset, and the reasons a step can stop. -/

namespace Sys2Proof.Machine

/-- DisplayMode: 0 is Clock, 1 is Voltage (10_state.md R32). -/
inductive DisplayMode where
  | clock | voltage
  deriving DecidableEq, Repr

/-- The serializer's phase, with the reserved encodings 5, 6, 7 (10_state.md R35). -/
inductive Phase where
  | idle | setup | clkhi | latlo | lathi | reserved5 | reserved6 | reserved7
  deriving DecidableEq, Repr

/-- The input ports as sampled in the current cycle (10_state.md R20); `true` is level 1. -/
structure Inputs where
  sysRst : Bool
  secTick : Bool
  refreshTick : Bool
  /-- Active low: `false` is pressed (10_state.md R23). -/
  rstBtnN : Bool
  /-- Active low: `false` is pressed (10_state.md R24). -/
  modeBtnN : Bool
  mvIn : BitVec 14
  deriving DecidableEq, Repr

/-- What a combinational function called on its own answers (30_encoding.md R72; the place is the model's, log 7). -/
inductive CombResult where
  | nothing
  | byte (b : Byte)
  | digit (d : BitVec 4) (sup : Bool)
  | millivolts (v : BitVec 14)
  deriving DecidableEq, Repr

/-- The registers of the block, one name each (10_state.md R30 to R38), and whether it was ever reset (log 6). -/
inductive Register where
  | timeValue | rstPrev | modeQ | slot | pending | phase | bitcnt | frame | outClk | outData | outLatch | resetSeen
  deriving DecidableEq, Repr

/-- The machine's state. -/
structure State where
  /-- TimeValue, the elapsed seconds (10_state.md R30). -/
  timeValue : BitVec 13
  /-- The reset-button level of the previous cycle (10_state.md R31). -/
  rstPrev : Bool
  /-- DisplayMode (10_state.md R32). -/
  modeQ : DisplayMode
  /-- DigitSlot, the position about to be lit (10_state.md R33). -/
  slot : BitVec 2
  /-- The refresh "work pending" flag (10_state.md R34). -/
  pending : Bool
  /-- The serializer's phase (10_state.md R35). -/
  phase : Phase
  /-- The index of the frame bit being shifted (10_state.md R36). -/
  bitcnt : BitVec 4
  /-- The transfer in progress: segment byte, select byte (10_state.md R37). -/
  frame : BitVec 16
  /-- The level of sr_clk (10_state.md R38). -/
  outClk : Bool
  /-- The level of sr_data (10_state.md R38). -/
  outData : Bool
  /-- The level of sr_latch (10_state.md R38). -/
  outLatch : Bool
  /-- A cycle with sys_rst = 1 has happened (70_reset_and_hazards.md R221; log 6). While it is `false` no step reads the
  registers above. -/
  resetSeen : Bool
  /-- The input ports of the current cycle (10_state.md R20). -/
  inp : Inputs
  /-- The receiver's 16-bit chain C (60_exceptions.md R198). -/
  chain : BitVec 16
  /-- The receiver's 16-bit output register O (60_exceptions.md R198). -/
  outReg : BitVec 16
  /-- The build parameters, which no operation writes (10_state.md R41; log 10). -/
  cfg : Config.Params
  /-- The model's own: the answer of the last combinational function called on its own (log 7). -/
  result : CombResult
  /-- The model's own: the stimulus not yet consumed, one entry a step (log 2). -/
  stimulus : List Stimulus
  /-- The model's own: how many free stimulus words were drawn (log 3). -/
  draws : Nat
  deriving DecidableEq, Repr

/-- Why the machine stops: exactly the reasons of 60_exceptions.md R191. -/
inductive Fault where
  /-- Raised by every CV operation but SYS_RESET, by SER_START and by the RESERVED_PHASE rows where phase is 5, 6, 7 or
  time_value is above 5999 (10_state.md R44), and by CLOCK_DIGITS of a tv above 5999 (30_encoding.md R79). Safe: the spec
  itself names it and gives no step. -/
  | unreachableState
  /-- Raised by the same operations before the first reset (70_reset_and_hazards.md R221). Safe: the spec itself names it and
  gives no step. -/
  | unreset
  deriving DecidableEq, Repr

/-- Why an instruction has no meaning. -/
inductive Refusal where
  /-- Raised by no arm of this model's exec; the host's name for an instruction not reached. Safe: the machine stops. -/
  | notModelled (mnemonic : String)
  /-- Raised by SELECT and MUX_SERVICE where SEL_TABLE breaks 40_encoder_selector.md R97 ("is refused"; log 11). Safe: the
  spec itself refuses such a table. -/
  | selTableRefused
  deriving DecidableEq, Repr

/-- The machine right after reset (10_state.md R42). The ports, the receiver and the model's own fields, for which the spec
gives no reset value, hold the values of log 2, 3, 4, 5 and 7; the parameters hold their defaults (log 10). -/
def State.reset : State where
  timeValue := 0
  rstPrev := true
  modeQ := .clock
  slot := 0
  pending := false
  phase := .idle
  bitcnt := 0
  frame := 0x0000
  outClk := false
  outData := false
  outLatch := true
  resetSeen := true
  inp := { sysRst := false, secTick := false, refreshTick := false, rstBtnN := true, modeBtnN := true, mvIn := 0 }
  chain := 0x0000
  outReg := 0x0000
  cfg := Tables.defaults
  result := .nothing
  stimulus := []
  draws := 0

end Sys2Proof.Machine
end

