-- ==== Sys2Proof/Machine/Flags.lean ====
section
/-! DEFINITION. The one-bit signals computed from the registers and the ports of a cycle. -/

namespace Sys2Proof.Machine.Flags

/-- `busy` (10_state.md R46). -/
def busy (s : State) : Bool := decide (s.phase ≠ .idle)

/-- The service condition of 42_multiplexer.md R130 and R131 (of a cycle with sys_rst = 0). -/
def service (s : State) : Bool := s.pending && decide (s.phase = .idle)

/-- The only writing expression of `pending` (42_multiplexer.md R130). -/
def nextPending (s : State) : Bool := s.inp.refreshTick || (s.pending && !service s)

/-- The reset gate's fire signal (43_timebase_mode.md R160). -/
def rstFire (s : State) : Bool := s.rstPrev && !s.inp.rstBtnN

/-- The mode a button level gives: Voltage while pressed (43_timebase_mode.md R166). -/
def modeOf (modeBtnN : Bool) : DisplayMode := if modeBtnN then .clock else .voltage

end Sys2Proof.Machine.Flags
end

