-- ==== Sys2Proof/Machine/Operands.lean ====
section
/-! DEFINITION. The combinational functions (00_scope.md R7): ENCODE, SELECT, CLOCK_DIGITS, VOLT_DIGITS, CLAMP_MV, and how a
service cycle chains them (30_encoding.md R73, 42_multiplexer.md R132). -/

namespace Sys2Proof.Machine.Operands

/-- Suppression acts on bit 7 only, forcing it to DP_FORCE (40_encoder_selector.md R92). -/
def suppress (dpForce : Bool) (p : Byte) : Byte := bit dpForce ++ p.extractLsb' 0 7

/-- ENCODE(d, sup) (40_encoder_selector.md R91); outside 0 to 9, the free value of R93. -/
def encodeByte (cfg : Config.Params) (d : BitVec 4) (sup : Bool) : Byte :=
  if h : d.toNat < 10 then
    if sup then suppress cfg.dpForce cfg.segTable[d.toNat] else cfg.segTable[d.toNat]
  else Config.encodeOutside d sup

/-- SEL_TABLE[p]. -/
def selEntry (cfg : Config.Params) (p : Fin 4) : Byte := cfg.selTable[p]

/-- Whether a select byte enables digit q: its bit ENABLE_BIT(q) is 0 (40_encoder_selector.md R97). -/
def enables (cfg : Config.Params) (b : Byte) (q : Fin 4) : Bool := !b.getLsbD cfg.enableBit[q].toNat

/-- SEL_TABLE meets constraints (a) and (b) of 40_encoder_selector.md R97. -/
def selTableOk (cfg : Config.Params) : Bool :=
  decide (∀ p q : Fin 4, (selEntry cfg p = selEntry cfg q → p = q) ∧ (enables cfg (selEntry cfg p) q = decide (p = q)))

/-- SELECT(p) (40_encoder_selector.md R96), or none where the table is refused (R97). -/
def selectByte (cfg : Config.Params) (p : BitVec 2) : Option Byte :=
  if selTableOk cfg then some (selEntry cfg p.toFin) else none

/-- CLOCK_DIGITS(slot, tv) for a tv in range (42_multiplexer.md R135). -/
def clockDigit (slot : BitVec 2) (tv : BitVec 13) : BitVec 4 × Bool :=
  if slot = 0 then (BitVec.ofNat 4 (tv.toNat / 60 / 10), false)
  else if slot = 1 then (BitVec.ofNat 4 (tv.toNat / 60 % 10), true)
  else if slot = 2 then (BitVec.ofNat 4 (tv.toNat % 60 / 10), false)
  else (BitVec.ofNat 4 (tv.toNat % 60 % 10), false)

/-- VOLT_DIGITS(slot, mv) (42_multiplexer.md R136). For an mv above 9999 the suppression flag is the rule's and the digit is
free (log 9). -/
def voltDigit (slot : BitVec 2) (mv : BitVec 14) : BitVec 4 × Bool :=
  if mv.toNat ≤ Tables.mvMax then
    if slot = 0 then (BitVec.ofNat 4 (mv.toNat / 1000), true)
    else if slot = 1 then (BitVec.ofNat 4 (mv.toNat % 1000 / 100), false)
    else if slot = 2 then (BitVec.ofNat 4 (mv.toNat % 1000 % 100 / 10), false)
    else (BitVec.ofNat 4 (mv.toNat % 1000 % 10), false)
  else (Config.voltDigitOutside slot mv, decide (slot = 0))

/-- CLAMP_MV(v) (42_multiplexer.md R137). -/
def clamp (v : BitVec 14) : BitVec 14 := BitVec.ofNat 14 (min v.toNat Tables.mvMax)

/-- The digit and flag of a service: the active mode's, for the current slot (42_multiplexer.md R132, R134). -/
def activeDigit (s : State) : BitVec 4 × Bool :=
  match s.modeQ with
  | .clock => clockDigit s.slot s.timeValue
  | .voltage => voltDigit s.slot (clamp s.inp.mvIn)

/-- The segment byte of a service (42_multiplexer.md R132). -/
def activeSegment (s : State) : Byte := encodeByte s.cfg (activeDigit s).1 (activeDigit s).2

/-- The bit of the frame that SETUP drives, `frame[15 - bitcnt]` (41_serializer.md R113, 20_memory.md R55). -/
def frameBit (f : BitVec 16) (n : BitVec 4) : Bool := f.getLsbD (15 - n.toNat)

/-- The next TimeValue on a tick (43_timebase_mode.md R163). -/
def tickTime (tv : BitVec 13) : BitVec 13 := if tv.toNat = Tables.tvLast then 0 else tv + 1

end Sys2Proof.Machine.Operands
end

