-- ==== Sys2Proof/Machine/Ops.lean ====
section
/-! DEFINITION. The named operations over the state: the codes of the phase and mode, the condition vector, sampling the
ports, the check every block operation starts with, reset, starting a transfer, the single-writer table, and the receiver.
There is no memory and no exception to take on this hardware (20_memory.md R50, 60_exceptions.md R195). -/

namespace Sys2Proof.Machine.Ops

/-- The encoding of a phase (10_state.md R35). -/
def phaseCode : Phase → BitVec 3
  | .idle => 0
  | .setup => 1
  | .clkhi => 2
  | .latlo => 3
  | .lathi => 4
  | .reserved5 => 5
  | .reserved6 => 6
  | .reserved7 => 7

/-- The phase of an encoding (10_state.md R35). -/
def phaseOf (c : BitVec 3) : Phase :=
  if c = 0 then .idle
  else if c = 1 then .setup
  else if c = 2 then .clkhi
  else if c = 3 then .latlo
  else if c = 4 then .lathi
  else if c = 5 then .reserved5
  else if c = 6 then .reserved6
  else .reserved7

/-- The encodings 5, 6 and 7 (10_state.md R35). -/
def reserved : Phase → Bool
  | .reserved5 | .reserved6 | .reserved7 => true
  | .idle | .setup | .clkhi | .latlo | .lathi => false

/-- An unreachable state (10_state.md R44). -/
def unreachable (s : State) : Bool := reserved s.phase || decide (Tables.tvLast < s.timeValue.toNat)

/-- The condition vector of the cycle, `HHH Q P R F S B M` (30_encoding.md R71). -/
def conditionVector (s : State) : CondVector :=
  phaseCode s.phase ++ bit s.pending ++ bit s.rstPrev ++ bit s.inp.sysRst ++ bit s.inp.refreshTick ++ bit s.inp.secTick
    ++ bit s.inp.rstBtnN ++ bit s.inp.modeBtnN

/-- The port levels of a stimulus word (30_encoding.md R70). -/
def ports (sw : StimWord) : Inputs where
  modeBtnN := sw.getLsbD 0
  rstBtnN := sw.getLsbD 1
  secTick := sw.getLsbD 2
  refreshTick := sw.getLsbD 3
  sysRst := sw.getLsbD 4
  mvIn := sw.extractLsb' 5 14

/-- What every operation of the block but SYS_RESET starts with: no step before the first reset (70_reset_and_hazards.md R221)
and none from an unreachable state (10_state.md R44); else it goes on. -/
def operate (s : State) (go : State → Host.Outcome State Fault Refusal) : Host.Outcome State Fault Refusal :=
  if s.resetSeen = false then .fault .unreset
  else if unreachable s then .fault .unreachableState
  else go s

/-- Every register to its reset value (10_state.md R42). The ports, the receiver, the parameters and the model's own fields
are no registers of the block and hold. -/
def resetBlock (s : State) : State :=
  { s with
    timeValue := 0, rstPrev := true, modeQ := .clock, slot := 0, pending := false, phase := .idle, bitcnt := 0
    frame := 0x0000, outClk := false, outData := false, outLatch := true, resetSeen := true }

/-- SER_START(seg, sel) (41_serializer.md R112). -/
def startTransfer (s : State) (seg sel : Byte) : State :=
  { s with frame := seg ++ sel, bitcnt := 0, phase := .setup }

/-- The answer of a combinational function called on its own (log 7); it writes no register (00_scope.md R7). -/
def answer (s : State) (r : CombResult) : Host.Outcome State Fault Refusal := .next { s with result := r }

/-- The registers an operation writes: the "fields written" of 30_encoding.md R74 and of each operation's rule. -/
def writes : Instr → List Register
  | .sysReset =>
    [.timeValue, .rstPrev, .modeQ, .slot, .pending, .phase, .bitcnt, .frame, .outClk, .outData, .outLatch, .resetSeen]
  | .modeSample => [.modeQ]
  | .rstEdge => [.rstPrev]
  | .tbReset => [.timeValue]
  | .tbTick => [.timeValue]
  | .refreshReq => [.pending]
  | .muxService => [.slot, .frame, .bitcnt, .phase, .pending]
  | .serIdle => []
  | .serSetup => [.outData, .outClk, .phase]
  | .serClkhi => [.outClk, .bitcnt, .phase]
  | .serLatlo => [.outClk, .outLatch, .phase]
  | .serLathi => [.outLatch, .phase]
  | .serStart _ _ => [.frame, .bitcnt, .phase]
  | .reservedPhase5 | .reservedPhase6 | .reservedPhase7 => []
  | .encode _ _ | .reservedEncD10111415 _ _ | .reservedEncD12131415 _ _ | .select _ => []
  | .clockDigits _ _ | .voltDigits _ _ | .clampMv _ => []

/-- Whether an operation writes a register. -/
def writesRegister (i : Instr) (f : Register) : Bool := decide (f ∈ writes i)

/-- The writes of operation `i`, which went to `t` on its own, put into the next state of the cycle: all writes of a cycle
land together (00_scope.md R7, 30_encoding.md R76). -/
def commit (i : Instr) (t acc : State) : State :=
  { acc with
    timeValue := if writesRegister i .timeValue then t.timeValue else acc.timeValue
    rstPrev := if writesRegister i .rstPrev then t.rstPrev else acc.rstPrev
    modeQ := if writesRegister i .modeQ then t.modeQ else acc.modeQ
    slot := if writesRegister i .slot then t.slot else acc.slot
    pending := if writesRegister i .pending then t.pending else acc.pending
    phase := if writesRegister i .phase then t.phase else acc.phase
    bitcnt := if writesRegister i .bitcnt then t.bitcnt else acc.bitcnt
    frame := if writesRegister i .frame then t.frame else acc.frame
    outClk := if writesRegister i .outClk then t.outClk else acc.outClk
    outData := if writesRegister i .outData then t.outData else acc.outData
    outLatch := if writesRegister i .outLatch then t.outLatch else acc.outLatch
    resetSeen := if writesRegister i .resetSeen then t.resetSeen else acc.resetSeen }

/-- The receiver between two consecutive cycles (60_exceptions.md R198): `s` holds the lines of the cycle, `t` those of the
next. C shifts in sr_data when sr_clk rises, O takes C when sr_latch rises. sr_data is read as it stands after the edge; the
only operation that raises sr_clk holds it (log 15). -/
def receive (s t : State) : State :=
  { t with
    chain := if !s.outClk && t.outClk then (s.chain.extractLsb' 0 15) ++ bit t.outData else s.chain
    outReg := if !s.outLatch && t.outLatch then s.chain else s.outReg }

/-- The state with a table word put where the next step fetches it (log 13): a condition vector sets the fields and ports it
is made of; a call is the next entry of the queue; SER_START is reached by a service cycle, which calls it. -/
def placeWord (s : State) : TableWord → State
  | .cv w =>
    { s with
      phase := phaseOf (w.extractLsb' 7 3), pending := w.getLsbD 6, rstPrev := w.getLsbD 5
      stimulus := .cycle (stimWord 0 (w.extractLsb' 0 5)) :: s.stimulus }
  | .call w => { s with stimulus := .call w :: s.stimulus }
  | .start _ _ => { s with phase := .idle, pending := true, stimulus := .cycle (stimWord 0 0x03) :: s.stimulus }

end Sys2Proof.Machine.Ops
end

