-- ==== Sys2Proof/Machine/Encoder.lean ====
section
/-! DEFINITION. SegmentEncoder and DigitSelector (40_encoder_selector.md), called on their own. -/

namespace Sys2Proof.Machine

/-- ENCODE (40_encoder_selector.md R91). -/
def execEncode (d : BitVec 4) (sup : Bool) (s : State) : Host.Outcome State Fault Refusal :=
  Ops.answer s (.byte (Operands.encodeByte s.cfg d sup))

/-- RESERVED_ENC_D10_11_14_15: ENCODE outside its contract answers the free value (40_encoder_selector.md R93). -/
def execReservedEncD10111415 (d : BitVec 4) (sup : Bool) (s : State) : Host.Outcome State Fault Refusal :=
  Ops.answer s (.byte (Config.encodeOutside d sup))

/-- RESERVED_ENC_D12_13_14_15: ENCODE outside its contract answers the free value (40_encoder_selector.md R93). -/
def execReservedEncD12131415 (d : BitVec 4) (sup : Bool) (s : State) : Host.Outcome State Fault Refusal :=
  Ops.answer s (.byte (Config.encodeOutside d sup))

/-- SELECT (40_encoder_selector.md R96); a table that breaks R97 is refused. -/
def execSelect (p : BitVec 2) (s : State) : Host.Outcome State Fault Refusal :=
  match Operands.selectByte s.cfg p with
  | some b => Ops.answer s (.byte b)
  | none => .refused .selTableRefused

end Sys2Proof.Machine
end

