-- ==== Sys2Proof/Machine/Multiplexer.lean ====
section
/-! DEFINITION. DisplayMultiplexer (42_multiplexer.md). -/

namespace Sys2Proof.Machine

/-- REFRESH_REQ: `pending` through its one writing expression (42_multiplexer.md R130). -/
def execRefreshReq (s : State) : Host.Outcome State Fault Refusal :=
  Ops.operate s fun s => .next { s with pending := Flags.nextPending s }

/-- MUX_SERVICE (42_multiplexer.md R132): the frame of the current slot, the slot's advance (R133), `pending` through R130. -/
def execMuxService (s : State) : Host.Outcome State Fault Refusal :=
  Ops.operate s fun s =>
    match Operands.selectByte s.cfg s.slot with
    | some sel =>
      .next { Ops.startTransfer s (Operands.activeSegment s) sel with
        slot := s.slot + 1, pending := Flags.nextPending s }
    | none => .refused .selTableRefused

/-- CLOCK_DIGITS (42_multiplexer.md R135); a tv above 5999 is reserved (30_encoding.md R79). -/
def execClockDigits (slot : BitVec 2) (tv : BitVec 13) (s : State) : Host.Outcome State Fault Refusal :=
  if Tables.tvLast < tv.toNat then .fault .unreachableState
  else Ops.answer s (.digit (Operands.clockDigit slot tv).1 (Operands.clockDigit slot tv).2)

/-- VOLT_DIGITS (42_multiplexer.md R136). -/
def execVoltDigits (slot : BitVec 2) (mv : BitVec 14) (s : State) : Host.Outcome State Fault Refusal :=
  Ops.answer s (.digit (Operands.voltDigit slot mv).1 (Operands.voltDigit slot mv).2)

/-- CLAMP_MV (42_multiplexer.md R137). -/
def execClampMv (mv : BitVec 14) (s : State) : Host.Outcome State Fault Refusal :=
  Ops.answer s (.millivolts (Operands.clamp mv))

end Sys2Proof.Machine
end

