-- ==== Sys2Proof/Machine/Serializer.lean ====
section
/-! DEFINITION. ShiftRegisterDriver (41_serializer.md) and the reserved phases (30_encoding.md R79). -/

namespace Sys2Proof.Machine

/-- SER_IDLE (41_serializer.md R111): every line and register holds. -/
def execSerIdle (s : State) : Host.Outcome State Fault Refusal := Ops.operate s .next

/-- SER_START (41_serializer.md R112). -/
def execSerStart (seg sel : Byte) (s : State) : Host.Outcome State Fault Refusal :=
  Ops.operate s fun s => .next (Ops.startTransfer s seg sel)

/-- SER_SETUP (41_serializer.md R113). -/
def execSerSetup (s : State) : Host.Outcome State Fault Refusal :=
  Ops.operate s fun s =>
    .next { s with outData := Operands.frameBit s.frame s.bitcnt, outClk := false, phase := .clkhi }

/-- SER_CLKHI (41_serializer.md R114). -/
def execSerClkhi (s : State) : Host.Outcome State Fault Refusal :=
  Ops.operate s fun s =>
    if s.bitcnt = 15 then .next { s with outClk := true, phase := .latlo }
    else .next { s with outClk := true, bitcnt := s.bitcnt + 1, phase := .setup }

/-- SER_LATLO (41_serializer.md R115). -/
def execSerLatlo (s : State) : Host.Outcome State Fault Refusal :=
  Ops.operate s fun s => .next { s with outClk := false, outLatch := false, phase := .lathi }

/-- SER_LATHI (41_serializer.md R116). -/
def execSerLathi (s : State) : Host.Outcome State Fault Refusal :=
  Ops.operate s fun s => .next { s with outLatch := true, phase := .idle }

/-- What a cycle of a reserved phase comes to (30_encoding.md R79, 10_state.md R44), whatever else the state holds. -/
def Ops.reservedPhase (s : State) : Host.Outcome State Fault Refusal :=
  Ops.operate s fun _ => .fault .unreachableState

/-- RESERVED_PHASE_5 (30_encoding.md R79). -/
def execReservedPhase5 (s : State) : Host.Outcome State Fault Refusal := Ops.reservedPhase s

/-- RESERVED_PHASE_6 (30_encoding.md R79). -/
def execReservedPhase6 (s : State) : Host.Outcome State Fault Refusal := Ops.reservedPhase s

/-- RESERVED_PHASE_7 (30_encoding.md R79). -/
def execReservedPhase7 (s : State) : Host.Outcome State Fault Refusal := Ops.reservedPhase s

end Sys2Proof.Machine
end

