-- ==== Sys2Proof/Machine/Timebase.lean ====
section
/-! DEFINITION. Timebase and ModeController (43_timebase_mode.md) and the system reset (70_reset_and_hazards.md R220). -/

namespace Sys2Proof.Machine

/-- SYS_RESET (70_reset_and_hazards.md R220): from every state, also before the first reset and from an unreachable one. -/
def execSysReset (s : State) : Host.Outcome State Fault Refusal := .next (Ops.resetBlock s)

/-- RST_EDGE (43_timebase_mode.md R161). -/
def execRstEdge (s : State) : Host.Outcome State Fault Refusal :=
  Ops.operate s fun s => .next { s with rstPrev := s.inp.rstBtnN }

/-- TB_RESET (43_timebase_mode.md R162). -/
def execTbReset (s : State) : Host.Outcome State Fault Refusal :=
  Ops.operate s fun s => .next { s with timeValue := 0 }

/-- TB_TICK (43_timebase_mode.md R163). -/
def execTbTick (s : State) : Host.Outcome State Fault Refusal :=
  Ops.operate s fun s => .next { s with timeValue := Operands.tickTime s.timeValue }

/-- MODE_SAMPLE (43_timebase_mode.md R166). -/
def execModeSample (s : State) : Host.Outcome State Fault Refusal :=
  Ops.operate s fun s => .next { s with modeQ := Flags.modeOf s.inp.modeBtnN }

end Sys2Proof.Machine
end

