-- ==== Sys2Proof/Machine/Dispatch.lean ====
section
/-! DEFINITION. One arm per constructor of Instr. -/

namespace Sys2Proof.Machine

def exec (i : Instr) (s : State) : Host.Outcome State Fault Refusal :=
  match i with
  | .sysReset => Sys2Proof.Machine.execSysReset s
  | .modeSample => Sys2Proof.Machine.execModeSample s
  | .rstEdge => Sys2Proof.Machine.execRstEdge s
  | .tbReset => Sys2Proof.Machine.execTbReset s
  | .tbTick => Sys2Proof.Machine.execTbTick s
  | .refreshReq => Sys2Proof.Machine.execRefreshReq s
  | .muxService => Sys2Proof.Machine.execMuxService s
  | .serIdle => Sys2Proof.Machine.execSerIdle s
  | .serSetup => Sys2Proof.Machine.execSerSetup s
  | .serClkhi => Sys2Proof.Machine.execSerClkhi s
  | .serLatlo => Sys2Proof.Machine.execSerLatlo s
  | .serLathi => Sys2Proof.Machine.execSerLathi s
  | .reservedPhase5 => Sys2Proof.Machine.execReservedPhase5 s
  | .reservedPhase6 => Sys2Proof.Machine.execReservedPhase6 s
  | .reservedPhase7 => Sys2Proof.Machine.execReservedPhase7 s
  | .encode d sup => Sys2Proof.Machine.execEncode d sup s
  | .reservedEncD10111415 d sup => Sys2Proof.Machine.execReservedEncD10111415 d sup s
  | .reservedEncD12131415 d sup => Sys2Proof.Machine.execReservedEncD12131415 d sup s
  | .select p => Sys2Proof.Machine.execSelect p s
  | .clockDigits slot tv => Sys2Proof.Machine.execClockDigits slot tv s
  | .voltDigits slot mv => Sys2Proof.Machine.execVoltDigits slot mv s
  | .clampMv mv => Sys2Proof.Machine.execClampMv mv s
  | .serStart seg sel => Sys2Proof.Machine.execSerStart seg sel s

end Sys2Proof.Machine
end

