-- ==== Sys2Proof/Machine/Cycle.lean ====
section
/-! DEFINITION. The clock cycle: sampling the stimulus, firing one operation per group on the same state, landing all writes
at one edge, and the receiver's reaction (43_timebase_mode.md R169, 30_encoding.md R74, 00_scope.md R7). -/

namespace Sys2Proof.Machine.Cycle

/-- The fired operations, each run on the state `s` of the cycle, their writes gathered in `acc`; the first stop stops. -/
def runFired (s : State) : List Instr → State → Host.Outcome State Fault Refusal
  | [], acc => .next acc
  | i :: is, acc =>
    match exec i s with
    | .next t => runFired s is (Ops.commit i t acc)
    | .fault r => .fault r
    | .refused r => .refused r

/-- One clock cycle of a state whose ports hold the cycle's levels. -/
def clock (s : State) : Host.Outcome State Fault Refusal :=
  match runFired s (fired (Ops.conditionVector s)) s with
  | .next t => .next (Ops.receive s t)
  | .fault r => .fault r
  | .refused r => .refused r

/-- The state with the ports of its next cycle sampled: those of the next stimulus word, or of a free one where the queue
holds none (log 2, 3). -/
def sampled (s : State) : State :=
  match s.stimulus with
  | .cycle sw :: rest => { s with stimulus := rest, inp := Ops.ports sw }
  | _ => { s with draws := s.draws + 1, inp := Ops.ports (Config.freeStimulus s.draws) }

/-- The next entry of the queue: a call of a combinational function on its own, or a clock cycle. -/
def advance (s : State) : Host.Outcome State Fault Refusal :=
  match s.stimulus with
  | .call w :: rest => exec (decodeCall w) { s with stimulus := rest }
  | _ => clock (sampled s)

end Sys2Proof.Machine.Cycle
end

