-- ==== Sys2Proof/Machine/Step.lean ====
section
/-! DEFINITION. The step of the machine, and a table word put where it fetches. -/

namespace Sys2Proof.Machine

/-- One step: one clock cycle (43_timebase_mode.md R169), or one call of a combinational function on its own (log 7). -/
def step (s : State) : Host.Outcome State Fault Refusal := Cycle.advance s

/-- `s` with a word of the opcode table put where the next step takes its operations from (log 2, 13). -/
def State.withFetchWord (s : State) (nbits w : Nat) : State :=
  match untaggedWord nbits w with
  | some t => Ops.placeWord s t
  | none => s

end Sys2Proof.Machine
end

