-- ==== Sys2Proof/Safety.lean ====
section
/-! DEFINITION. The terms claims are stated in: legal and running states, the accepted table, the rules of the spec written
out as plain functions (the slot map of 42_multiplexer.md R138, the frame of a service, the cycle step of
43_timebase_mode.md R169), the invariants of the serializer and the receiver, and counts over a run. -/

namespace Sys2Proof.Safety

open Sys2Proof.Machine

/-- One register of `t` put into `acc`. -/
def copyRegister (t : State) (acc : State) : Register → State
  | .timeValue => { acc with timeValue := t.timeValue }
  | .rstPrev => { acc with rstPrev := t.rstPrev }
  | .modeQ => { acc with modeQ := t.modeQ }
  | .slot => { acc with slot := t.slot }
  | .pending => { acc with pending := t.pending }
  | .phase => { acc with phase := t.phase }
  | .bitcnt => { acc with bitcnt := t.bitcnt }
  | .frame => { acc with frame := t.frame }
  | .outClk => { acc with outClk := t.outClk }
  | .outData => { acc with outData := t.outData }
  | .outLatch => { acc with outLatch := t.outLatch }
  | .resetSeen => { acc with resetSeen := t.resetSeen }

/-- The bounds every reachable state meets (10_state.md R43; bitcnt and slot meet theirs by their widths). -/
abbrev Legal (s : State) : Prop :=
  s.timeValue.toNat ≤ 5999 ∧ s.phase ≠ .reserved5 ∧ s.phase ≠ .reserved6 ∧ s.phase ≠ .reserved7

/-- A state the rules give a step: reset at least once, and legal. -/
abbrev Running (s : State) : Prop := s.resetSeen = true ∧ Legal s

/-- The constraints (a) and (b) of 40_encoder_selector.md R97 on SEL_TABLE and ENABLE_BIT. -/
abbrev TableAccepted (cfg : Config.Params) : Prop :=
  (∀ p q : Fin 4, p ≠ q → cfg.selTable[p] ≠ cfg.selTable[q]) ∧
    (∀ p q : Fin 4, cfg.selTable[p].getLsbD cfg.enableBit[q].toNat = decide (q ≠ p))

/-- The next step is a clock cycle, not a call of a combinational function on its own (log 7). -/
def nextIsCycle (s : State) : Bool :=
  match s.stimulus with
  | .call _ :: _ => false
  | _ => true

/-- A service cycle (42_multiplexer.md R131), of a state whose ports hold the cycle's levels. -/
def serviceCycle (s : State) : Bool := !s.inp.sysRst && s.pending && decide (s.phase = .idle)

/-- The slot map (42_multiplexer.md R138): the digit and the suppression flag of a mode and a slot. -/
def slotMap (mode : DisplayMode) (slot tv mv : Nat) : Nat × Bool :=
  match mode, slot with
  | .clock, 0 => (tv / 60 / 10, false)
  | .clock, 1 => (tv / 60 % 10, true)
  | .clock, 2 => (tv % 60 / 10, false)
  | .clock, _ => (tv % 60 % 10, false)
  | .voltage, 0 => (mv / 1000, true)
  | .voltage, 1 => (mv % 1000 / 100, false)
  | .voltage, 2 => (mv % 100 / 10, false)
  | .voltage, _ => (mv % 10, false)

/-- The pattern of a digit 0 to 9, bit 7 set to DP_FORCE on suppression (40_encoder_selector.md R91, R92). -/
def pattern (cfg : Config.Params) (d : Nat) (sup : Bool) : Byte :=
  let p := cfg.segTable.toList.getD d 0
  if sup then (if cfg.dpForce then p ||| 0x80 else p &&& 0x7F) else p

/-- The digit and flag a service of this state shows. -/
def shown (s : State) : Nat × Bool :=
  slotMap s.modeQ s.slot.toNat s.timeValue.toNat (min s.inp.mvIn.toNat 9999)

/-- The frame a service of this state starts: the segment byte above the select byte (42_multiplexer.md R132). -/
def serviceFrame (s : State) : BitVec 16 :=
  pattern s.cfg (shown s).1 (shown s).2 ++ s.cfg.selTable[s.slot.toFin]

/-- The registers of 10_state.md R42 at their reset values. -/
abbrev AtReset (s : State) : Prop :=
  s.timeValue = 0 ∧ s.rstPrev = true ∧ s.modeQ = .clock ∧ s.slot = 0 ∧ s.pending = false ∧ s.phase = .idle ∧
    s.bitcnt = 0 ∧ s.frame = 0x0000 ∧ s.outClk = false ∧ s.outData = false ∧ s.outLatch = true

/-- The serializer's writes in a cycle without reset, by phase (43_timebase_mode.md R169, SER group): `t` is the next state
as far as the other groups made it. -/
def ruleSer (s t : State) : State :=
  match s.phase with
  | .idle =>
    if s.pending then { t with frame := serviceFrame s, bitcnt := 0, phase := .setup, slot := s.slot + 1 } else t
  | .setup => { t with outData := s.frame.getLsbD (15 - s.bitcnt.toNat), outClk := false, phase := .clkhi }
  | .clkhi =>
    if s.bitcnt.toNat = 15 then { t with outClk := true, phase := .latlo }
    else { t with outClk := true, bitcnt := s.bitcnt + 1, phase := .setup }
  | .latlo => { t with outClk := false, outLatch := false, phase := .lathi }
  | .lathi => { t with outLatch := true, phase := .idle }
  | .reserved5 | .reserved6 | .reserved7 => t

/-- The next TimeValue of a cycle (43_timebase_mode.md R165). -/
def ruleTime (s : State) : Nat :=
  if s.inp.sysRst then 0
  else if s.rstPrev = true ∧ s.inp.rstBtnN = false then 0
  else if s.inp.secTick then (if s.timeValue.toNat = 5999 then 0 else s.timeValue.toNat + 1)
  else s.timeValue.toNat

/-- The cycle step as 43_timebase_mode.md R169 writes it, one function from the registers and ports of the cycle; with it the
two stops of 60_exceptions.md R191, the refused table of 40_encoder_selector.md R97, and the receiver of R198. -/
def ruleStep (s : State) : Host.Outcome State Fault Refusal :=
  if s.inp.sysRst then
    .next (Ops.receive s
      { s with
        timeValue := 0, rstPrev := true, modeQ := .clock, slot := 0, pending := false, phase := .idle, bitcnt := 0
        frame := 0, outClk := false, outData := false, outLatch := true, resetSeen := true })
  else if s.resetSeen = false then .fault .unreset
  else if ¬ Legal s then .fault .unreachableState
  else if s.pending = true ∧ s.phase = .idle ∧ ¬ TableAccepted s.cfg then .refused .selTableRefused
  else
    .next (Ops.receive s (ruleSer s
      { s with
        rstPrev := s.inp.rstBtnN
        timeValue := BitVec.ofNat 13 (ruleTime s)
        modeQ := if s.inp.modeBtnN then .clock else .voltage
        pending := s.inp.refreshTick || (s.pending && !decide (s.phase = .idle)) }))

/-- The lines in each phase (41_serializer.md R113 to R119): the latch line is low only in LATHI; the clock line is high only
in the SETUP of bits 1 to 15 and in LATLO; in CLKHI the data line holds the current bit; bitcnt is 15 in LATLO and LATHI. -/
abbrev LinesInv (s : State) : Prop :=
  s.outLatch = decide (s.phase ≠ .lathi) ∧
    s.outClk = decide ((s.phase = .setup ∧ s.bitcnt ≠ 0) ∨ s.phase = .latlo) ∧
    (s.phase = .clkhi → s.outData = s.frame.getLsbD (15 - s.bitcnt.toNat)) ∧
    (s.phase = .latlo ∨ s.phase = .lathi → s.bitcnt = 15)

/-- How many bits of the frame the receiver's chain has taken (41_serializer.md R117). -/
def bitsShifted (s : State) : Nat :=
  match s.phase with
  | .setup | .clkhi => s.bitcnt.toNat
  | .latlo | .lathi => 16
  | .idle | .reserved5 | .reserved6 | .reserved7 => 0

/-- The chain's low bits are the frame's high bits shifted so far (60_exceptions.md R198, 20_memory.md R55). -/
abbrev ChainInv (s : State) : Prop :=
  ∀ j : Fin 16, j.val < bitsShifted s → s.chain.getLsbD j.val = s.frame.getLsbD (16 - bitsShifted s + j.val)

/-- While a transfer is in progress the frame's select byte is an entry of SEL_TABLE (42_multiplexer.md R132). -/
abbrev SelectInv (s : State) : Prop :=
  s.phase ≠ .idle → ∃ p : Fin 4, s.frame.extractLsb' 0 8 = s.cfg.selTable[p]

/-- What every state after a reset meets. -/
abbrev Inv (s : State) : Prop := Running s ∧ LinesInv s ∧ ChainInv s ∧ SelectInv s

/-- The low byte of the receiver's outputs enables exactly the digit `p` (10_state.md R47, 40_encoder_selector.md R97). -/
abbrev enablesOnly (cfg : Config.Params) (o : BitVec 16) (p : Fin 4) : Prop :=
  ∀ q : Fin 4, o.getLsbD cfg.enableBit[q].toNat = decide (q ≠ p)

/-- The queue begins with these clock cycles. -/
def feeds (s : State) (ws : List StimWord) (rest : List Stimulus) : Prop := s.stimulus = ws.map Stimulus.cycle ++ rest

/-- No word asserts sys_rst (30_encoding.md R70). -/
abbrev noReset (ws : List StimWord) : Prop := ∀ w ∈ ws, w.getLsbD 4 = false

/-- How many of the next `n` steps satisfy `p`, asked of the state whose ports hold the step's cycle; a call of a
combinational function on its own is no cycle and is not counted, and a stop ends the count. -/
def countCycles (p : State → Bool) : Nat → State → Nat
  | 0, _ => 0
  | n + 1, s =>
    match step s with
    | .next t => (if nextIsCycle s && p (Cycle.sampled s) then 1 else 0) + countCycles p n t
    | .fault _ => 0
    | .refused _ => 0

/-- TB_RESET fires in the cycle (43_timebase_mode.md R162). -/
def resetEdgeFires (s : State) : Bool := decide (Instr.tbReset ∈ fired (Ops.conditionVector s))

/-- A refresh tick that changes nothing: it merges into a pending request that is not being served (70_reset_and_hazards.md
R224), or falls into a reset cycle (R220). -/
def tickLost (s : State) : Bool :=
  s.inp.refreshTick && (s.inp.sysRst || (s.pending && decide (s.phase ≠ .idle)))

/-- The constraint the environment owes on the clock (70_reset_and_hazards.md R228), of a frequency in hertz and a width in
nanoseconds: one period is at least the longest width, setup or hold time the external registers need. -/
def pulseWidthOk (fClk tWMin : Nat) : Prop := tWMin * fClk ≤ 1000000000

end Sys2Proof.Safety
end

