-- ==== Sys2Proof/Certificates/Slice0/Obligations.lean ====
section
/-! DEFINITION. The statements for the provers. -/

open Sys2Proof Sys2Proof.Machine Sys2Proof.Safety

/-! ### Encoding -/

/-- Words written out from 30_encoding.md R72 and R77: each format, a reserved row, SYS_RESET over everything, TB_RESET
over TB_TICK. -/
def Obligations.TableWordsDecode : Prop :=
  decode (.cv 0x01F) = [.sysReset] ∧
    decode (.cv 0x064) = [.modeSample, .rstEdge, .tbReset, .muxService] ∧
    decode (.cv 0x00F) = [.modeSample, .rstEdge, .tbTick, .refreshReq, .serIdle] ∧
    decode (.cv 0x083) = [.modeSample, .rstEdge, .serSetup] ∧
    decode (.cv 0x343) = [.modeSample, .rstEdge, .reservedPhase6] ∧
    decode (.call (.enc 0x18)) = [.encode 8 true] ∧
    decode (.call (.enc 0x0D)) = [.reservedEncD12131415 13 false] ∧
    decode (.call (.tvd 0x207D)) = [.clockDigits 1 125] ∧
    decode (.call (.mvd 0xC672)) = [.voltDigits 3 1650] ∧
    decode (.call (.mv 0x2EE0)) = [.clampMv 12000]

/-- 30_encoding.md R78 and the last sentence of R74: which operations a condition vector fires, field by field. -/
def Obligations.FiredByFields : Prop :=
  ∀ cv : CondVector,
    (cv.getLsbD 4 = true → fired cv = [.sysReset]) ∧
    (cv.getLsbD 4 = false →
      ∃ ser : Instr,
        fired cv =
          [.modeSample, .rstEdge] ++
            (if cv.getLsbD 5 = true ∧ cv.getLsbD 1 = false then [.tbReset]
              else if cv.getLsbD 2 = true then [.tbTick] else []) ++
            (if cv.getLsbD 3 = true then [.refreshReq] else []) ++ [ser] ∧
        (cv.extractLsb' 7 3 = 0 → ser = if cv.getLsbD 6 = true then .muxService else .serIdle) ∧
        (cv.extractLsb' 7 3 = 1 → ser = .serSetup) ∧
        (cv.extractLsb' 7 3 = 2 → ser = .serClkhi) ∧
        (cv.extractLsb' 7 3 = 3 → ser = .serLatlo) ∧
        (cv.extractLsb' 7 3 = 4 → ser = .serLathi) ∧
        (cv.extractLsb' 7 3 = 5 → ser = .reservedPhase5) ∧
        (cv.extractLsb' 7 3 = 6 → ser = .reservedPhase6) ∧
        (cv.extractLsb' 7 3 = 7 → ser = .reservedPhase7))

/-- The operation map of 30_encoding.md R77 and the reserved phases of R79, row by row with mask and match. -/
def Obligations.CvRowsFireExactly : Prop :=
  ∀ cv : CondVector,
    (.sysReset ∈ fired cv ↔ cv &&& 0x010 = 0x010) ∧
    (.modeSample ∈ fired cv ↔ cv &&& 0x010 = 0x000) ∧
    (.rstEdge ∈ fired cv ↔ cv &&& 0x010 = 0x000) ∧
    (.tbReset ∈ fired cv ↔ cv &&& 0x032 = 0x020) ∧
    (.tbTick ∈ fired cv ↔ cv &&& 0x014 = 0x004 ∧ ¬ cv &&& 0x032 = 0x020) ∧
    (.refreshReq ∈ fired cv ↔ cv &&& 0x018 = 0x008) ∧
    (.muxService ∈ fired cv ↔ cv &&& 0x3D0 = 0x040) ∧
    (.serIdle ∈ fired cv ↔ cv &&& 0x3D0 = 0x000) ∧
    (.serSetup ∈ fired cv ↔ cv &&& 0x390 = 0x080) ∧
    (.serClkhi ∈ fired cv ↔ cv &&& 0x390 = 0x100) ∧
    (.serLatlo ∈ fired cv ↔ cv &&& 0x390 = 0x180) ∧
    (.serLathi ∈ fired cv ↔ cv &&& 0x390 = 0x200) ∧
    (.reservedPhase5 ∈ fired cv ↔ cv &&& 0x390 = 0x280) ∧
    (.reservedPhase6 ∈ fired cv ↔ cv &&& 0x390 = 0x300) ∧
    (.reservedPhase7 ∈ fired cv ↔ cv &&& 0x390 = 0x380)

/-- Decode and encode agree (30_encoding.md R72, R77): every well-formed instruction is among the operations of its own
word, a function is the only one, and every operand word is the word of the function it calls. RESERVED_ENC_D12_13_14_15
with digit 14 or 15 reads as the table's first row (log 14). -/
def Obligations.DecodeEncodeAgree : Prop :=
  (∀ i : Instr, i.wellFormed = true → i ∈ decode (encode i)) ∧
    (∀ (i : Instr) (w : CallWord), i.wellFormed = true → encode i = .call w → decode (encode i) = [i]) ∧
    (∀ seg sel : Byte, decode (encode (.serStart seg sel)) = [.serStart seg sel]) ∧
    (∀ w : CallWord, (decodeCall w).wellFormed = true ∧ encode (decodeCall w) = .call w) ∧
    (∀ (d : BitVec 4) (sup : Bool), 14 ≤ d.toNat →
      decode (encode (.reservedEncD12131415 d sup)) = [.reservedEncD10111415 d sup])

/-- 30_encoding.md R76: two operations of one cycle write no field in common but `pending`, and there REFRESH_REQ and
MUX_SERVICE write one and the same value, that of the one expression of 42_multiplexer.md R130. -/
def Obligations.WriteSetsAreDisjoint : Prop :=
  (∀ (cv : CondVector) (i j : Instr) (f : Register), i ∈ fired cv → j ∈ fired cv → i ≠ j →
      f ∈ Ops.writes i → f ∈ Ops.writes j →
      f = .pending ∧ (i = .refreshReq ∧ j = .muxService ∨ i = .muxService ∧ j = .refreshReq)) ∧
    (∀ s t u : State, exec .refreshReq s = .next t → exec .muxService s = .next u →
      t.pending = u.pending ∧
        t.pending = (s.inp.refreshTick || (s.pending && !(s.pending && decide (s.phase = .idle)))))

/-! ### Each instruction on its own: result and frame -/

/-- SYS_RESET completes from every state (70_reset_and_hazards.md R220), also before the first reset and from an
unreachable state; everything but the registers holds. -/
def Obligations.SysResetCompletes : Prop :=
  ∀ s : State, exec .sysReset s = .next
    { s with
      timeValue := 0, rstPrev := true, modeQ := .clock, slot := 0, pending := false, phase := .idle, bitcnt := 0
      frame := 0x0000, outClk := false, outData := false, outLatch := true, resetSeen := true }

/-- RST_EDGE, MODE_SAMPLE, TB_RESET and TB_TICK complete from every running state (43_timebase_mode.md R161, R166, R162,
R163), and everything they do not name holds. That an operation run on its own does not ask for the inputs that select
it is the model's reading (log 12). -/
def Obligations.TimebaseOperationsComplete : Prop :=
  ∀ s : State, Running s →
    exec .rstEdge s = .next { s with rstPrev := s.inp.rstBtnN } ∧
    exec .modeSample s = .next { s with modeQ := if s.inp.modeBtnN then .clock else .voltage } ∧
    exec .tbReset s = .next { s with timeValue := 0 } ∧
    exec .tbTick s = .next { s with
      timeValue := BitVec.ofNat 13 (if s.timeValue.toNat = 5999 then 0 else s.timeValue.toNat + 1) }

/-- REFRESH_REQ completes from every running state and writes `pending` only (42_multiplexer.md R130). That it does not
ask, on its own, for the tick that selects it is the model's reading (log 12). -/
def Obligations.RefreshRequestCompletes : Prop :=
  ∀ s : State, Running s →
    exec .refreshReq s = .next { s with
      pending := s.inp.refreshTick || (s.pending && !(s.pending && decide (s.phase = .idle))) }

/-- MUX_SERVICE completes from every running state whose table is accepted (42_multiplexer.md R132): the frame is the
slot map's digit encoded over the slot's select byte, the slot advances mod 4, the rest holds. That it does not ask, on
its own, for the service condition is the model's reading (log 12). -/
def Obligations.MuxServiceCompletes : Prop :=
  ∀ s : State, Running s → TableAccepted s.cfg →
    exec .muxService s = .next
      { s with
        frame := serviceFrame s, bitcnt := 0, phase := .setup, slot := s.slot + 1
        pending := s.inp.refreshTick || (s.pending && !(s.pending && decide (s.phase = .idle))) }

/-- SER_IDLE, SER_SETUP, SER_CLKHI, SER_LATLO, SER_LATHI and SER_START complete from every running state
(41_serializer.md R111 to R116), and everything they do not name holds. That an operation run on its own does not ask for
its phase, and that SER_START so has R112's effect also outside IDLE, where the spec gives it no call, is the model's
reading (log 12). -/
def Obligations.SerializerOperationsComplete : Prop :=
  ∀ s : State, Running s →
    exec .serIdle s = .next s ∧
    exec .serSetup s = .next
      { s with outData := s.frame.getLsbD (15 - s.bitcnt.toNat), outClk := false, phase := .clkhi } ∧
    (s.bitcnt = 15 → exec .serClkhi s = .next { s with outClk := true, phase := .latlo }) ∧
    (s.bitcnt ≠ 15 → exec .serClkhi s = .next { s with outClk := true, bitcnt := s.bitcnt + 1, phase := .setup }) ∧
    exec .serLatlo s = .next { s with outClk := false, outLatch := false, phase := .lathi } ∧
    exec .serLathi s = .next { s with outLatch := true, phase := .idle } ∧
    (∀ seg sel : Byte, exec (.serStart seg sel) s = .next { s with frame := seg ++ sel, bitcnt := 0, phase := .setup })

/-- The three reserved phases stop (30_encoding.md R79): UnreachableState, or Unreset before the first reset. -/
def Obligations.ReservedPhasesStop : Prop :=
  ∀ s : State, ∀ i ∈ [Instr.reservedPhase5, .reservedPhase6, .reservedPhase7],
    exec i s = .fault (if s.resetSeen then .unreachableState else .unreset)

/-- ENCODE of a digit 0 to 9 completes from every state (40_encoder_selector.md R91): its answer is the table's pattern,
bit 7 at DP_FORCE when suppressed, and no register changes. The place of the answer, `result`, is the model's (log 7).
-/
def Obligations.EncodeCompletes : Prop :=
  ∀ (s : State) (d : BitVec 4) (sup : Bool), d.toNat ≤ 9 →
    exec (.encode d sup) s = .next { s with result := .byte (pattern s.cfg d.toNat sup) }

/-- 40_encoder_selector.md R92, bit by bit: suppression changes bit 7 only, to DP_FORCE, and without it the answer is
SEG_TABLE[d]. The place of the answer is the model's (log 7). -/
def Obligations.SuppressionActsOnBitSeven : Prop :=
  ∀ (s t u : State) (d : BitVec 4) (b c : Byte), d.toNat ≤ 9 →
    exec (.encode d false) s = .next t → t.result = .byte b →
    exec (.encode d true) s = .next u → u.result = .byte c →
    b = s.cfg.segTable.toList.getD d.toNat 0 ∧ c.getLsbD 7 = s.cfg.dpForce ∧ ∀ k < 7, c.getLsbD k = b.getLsbD k

/-- ENCODE outside its contract (40_encoder_selector.md R93): the reserved rows, and ENCODE itself for a digit 10 to 15,
complete with the free value of the digit and the flag: that it is one function of the two is the model's reading of R94
(log 8), its place the model's (log 7). -/
def Obligations.ReservedEncAnswersFreeValue : Prop :=
  ∀ (s : State) (d : BitVec 4) (sup : Bool),
    exec (.reservedEncD10111415 d sup) s = .next { s with result := .byte (Config.encodeOutside d sup) } ∧
    exec (.reservedEncD12131415 d sup) s = .next { s with result := .byte (Config.encodeOutside d sup) } ∧
    (9 < d.toNat → exec (.encode d sup) s = .next { s with result := .byte (Config.encodeOutside d sup) })

/-- SELECT answers SEL_TABLE[p] of an accepted table and refuses any other (40_encoder_selector.md R96, R97). That the
refusal stands at SELECT is the model's choice (log 11), as is the place of the answer (log 7). -/
def Obligations.SelectCompletesOrRefuses : Prop :=
  ∀ (s : State) (p : BitVec 2),
    (TableAccepted s.cfg → exec (.select p) s = .next { s with result := .byte s.cfg.selTable[p.toFin] }) ∧
    (¬ TableAccepted s.cfg → exec (.select p) s = .refused .selTableRefused)

/-- 40_encoder_selector.md R97: a table SELECT answers from has four distinct entries, none of them blank, and each
answer has bit ENABLE_BIT(q) at 0 for q = p and at 1 for every other q. The place of the answer is the model's (log 7).
-/
def Obligations.SelectEnablesExactlyOneDigit : Prop :=
  ∀ (s t u : State) (p q : BitVec 2) (b c : Byte),
    exec (.select p) s = .next t → t.result = .byte b → exec (.select q) s = .next u → u.result = .byte c →
    (p ≠ q → b ≠ c) ∧ b ≠ 0xFF ∧
      (∀ r : BitVec 2, b.getLsbD s.cfg.enableBit[r.toFin].toNat = decide (r ≠ p))

/-- CLOCK_DIGITS (42_multiplexer.md R135): a tv to 5999 completes with the digit and flag of the slot; above, it stops
(30_encoding.md R79). The place of the answer is the model's (log 7). -/
def Obligations.ClockDigitsCompletesOrStops : Prop :=
  ∀ (s : State) (slot : BitVec 2) (tv : BitVec 13),
    (tv.toNat ≤ 5999 →
      ∃ (d : BitVec 4) (sup : Bool),
        exec (.clockDigits slot tv) s = .next { s with result := .digit d sup } ∧
        d.toNat ≤ 9 ∧
        (slot.toNat = 0 → d.toNat = tv.toNat / 60 / 10 ∧ sup = false) ∧
        (slot.toNat = 1 → d.toNat = tv.toNat / 60 % 10 ∧ sup = true) ∧
        (slot.toNat = 2 → d.toNat = tv.toNat % 60 / 10 ∧ d.toNat ≤ 5 ∧ sup = false) ∧
        (slot.toNat = 3 → d.toNat = tv.toNat % 60 % 10 ∧ sup = false)) ∧
    (5999 < tv.toNat → exec (.clockDigits slot tv) s = .fault .unreachableState)

/-- VOLT_DIGITS (42_multiplexer.md R136): an mv to 9999 completes with the digit and flag of the slot; above, where the
spec states no digit, it completes with the free one and the rule's flag (the model's choice, log 9). The place of the
answer is the model's (log 7). -/
def Obligations.VoltDigitsCompletes : Prop :=
  ∀ (s : State) (slot : BitVec 2) (mv : BitVec 14),
    (mv.toNat ≤ 9999 →
      ∃ (d : BitVec 4) (sup : Bool),
        exec (.voltDigits slot mv) s = .next { s with result := .digit d sup } ∧
        d.toNat ≤ 9 ∧
        (slot.toNat = 0 → d.toNat = mv.toNat / 1000 ∧ sup = true) ∧
        (slot.toNat = 1 → d.toNat = mv.toNat % 1000 / 100 ∧ sup = false) ∧
        (slot.toNat = 2 → d.toNat = mv.toNat % 1000 % 100 / 10 ∧ sup = false) ∧
        (slot.toNat = 3 → d.toNat = mv.toNat % 1000 % 10 ∧ sup = false)) ∧
    (9999 < mv.toNat →
      exec (.voltDigits slot mv) s = .next
        { s with result := .digit (Config.voltDigitOutside slot mv) (decide (slot.toNat = 0)) })

/-- CLAMP_MV answers min(v, 9999) (42_multiplexer.md R137). The place of the answer is the model's (log 7). -/
def Obligations.ClampCompletes : Prop :=
  ∀ (s : State) (v : BitVec 14),
    ∃ m : BitVec 14, exec (.clampMv v) s = .next { s with result := .millivolts m } ∧ m.toNat = min v.toNat 9999

/-- The four digits recombine (95_test_vectors.md E1, E4): of a tv to 5999 to tv, of an mv to 9999 to mv. The place of
the answers is the model's (log 7). -/
def Obligations.DigitsRecombine : Prop :=
  ∀ (s t0 t1 t2 t3 : State) (d0 d1 d2 d3 : BitVec 4) (p0 p1 p2 p3 : Bool),
    t0.result = .digit d0 p0 → t1.result = .digit d1 p1 → t2.result = .digit d2 p2 → t3.result = .digit d3 p3 →
    (∀ tv : BitVec 13,
      exec (.clockDigits 0 tv) s = .next t0 → exec (.clockDigits 1 tv) s = .next t1 →
      exec (.clockDigits 2 tv) s = .next t2 → exec (.clockDigits 3 tv) s = .next t3 →
      (d0.toNat * 10 + d1.toNat) * 60 + d2.toNat * 10 + d3.toNat = tv.toNat) ∧
    (∀ mv : BitVec 14, mv.toNat ≤ 9999 →
      exec (.voltDigits 0 mv) s = .next t0 → exec (.voltDigits 1 mv) s = .next t1 →
      exec (.voltDigits 2 mv) s = .next t2 → exec (.voltDigits 3 mv) s = .next t3 →
      d0.toNat * 1000 + d1.toNat * 100 + d2.toNat * 10 + d3.toNat = mv.toNat)

/-! ### Whole-machine rules about the instructions -/

/-- Each register changes only through the operations 10_state.md R30 to R38 name as its writers, and reset;
`resetSeen`, the model's field (log 6), only through reset. -/
def Obligations.RegistersHaveTheirWriters : Prop :=
  ∀ (i : Instr) (s t : State), exec i s = .next t → i ≠ .sysReset →
    (t.timeValue ≠ s.timeValue → i = .tbReset ∨ i = .tbTick) ∧
    (t.rstPrev ≠ s.rstPrev → i = .rstEdge) ∧
    (t.modeQ ≠ s.modeQ → i = .modeSample) ∧
    (t.slot ≠ s.slot → i = .muxService) ∧
    (t.pending ≠ s.pending → i = .refreshReq ∨ i = .muxService) ∧
    (t.phase ≠ s.phase → i = .muxService ∨ i = .serSetup ∨ i = .serClkhi ∨ i = .serLatlo ∨ i = .serLathi ∨
      ∃ seg sel, i = .serStart seg sel) ∧
    (t.bitcnt ≠ s.bitcnt → i = .muxService ∨ i = .serClkhi ∨ ∃ seg sel, i = .serStart seg sel) ∧
    (t.frame ≠ s.frame → i = .muxService ∨ ∃ seg sel, i = .serStart seg sel) ∧
    (t.outClk ≠ s.outClk → i = .serSetup ∨ i = .serClkhi ∨ i = .serLatlo) ∧
    (t.outData ≠ s.outData → i = .serSetup) ∧
    (t.outLatch ≠ s.outLatch → i = .serLatlo ∨ i = .serLathi) ∧
    t.resetSeen = s.resetSeen

/-- Frame of every instruction, for the fields that are no registers of the block (log 2, 3, 5, 7, 10): the ports, the
receiver, the parameters, the queue and the draw count hold; an operation of the block holds `result`; a combinational
function holds everything else (20_memory.md R51, 40_encoder_selector.md R94). -/
def Obligations.InstructionsHoldTheRest : Prop :=
  ∀ (i : Instr) (s t : State), exec i s = .next t →
    t.inp = s.inp ∧ t.chain = s.chain ∧ t.outReg = s.outReg ∧ t.cfg = s.cfg ∧ t.stimulus = s.stimulus ∧
      t.draws = s.draws ∧
      (∀ w : CallWord, encode i = .call w → t = { s with result := t.result }) ∧
      ((∀ w : CallWord, encode i ≠ .call w) → t.result = s.result)

/-- ENCODE and SELECT are pure (40_encoder_selector.md R94, R98): with the same parameters they answer the same from any
two states. For a digit 10 to 15, where R93 gives an unconstrained draw, that two calls agree is the model's reading of R94
(log 8). The place of the answer is the model's (log 7). -/
def Obligations.EncodeAndSelectArePure : Prop :=
  ∀ (s s' t t' : State) (i : Instr),
    (∃ d sup, i = .encode d sup) ∨ (∃ p, i = .select p) → s.cfg = s'.cfg →
    exec i s = .next t → exec i s' = .next t' →
      t.result = t'.result ∧ t = { s with result := t.result } ∧ t' = { s' with result := t'.result }

/-! ### The step -/

/-- A step runs the decoded operations: a call runs the function of its word and nothing else; a cycle samples its
ports, runs the fired operations on that one state and then the receiver reacts. The queue, the free word of an empty
queue and the calls on their own are the model's (log 2, 3, 7). -/
def Obligations.StepRunsDecodedOperations : Prop :=
  ∀ s : State,
    (∀ (w : CallWord) (rest : List Stimulus), s.stimulus = .call w :: rest →
      step s = exec (decodeCall w) { s with stimulus := rest }) ∧
    (∀ (sw : StimWord) (rest : List Stimulus), s.stimulus = .cycle sw :: rest →
      step s = Cycle.clock { s with stimulus := rest, inp := Ops.ports sw }) ∧
    (s.stimulus = [] →
      step s = Cycle.clock { s with draws := s.draws + 1, inp := Ops.ports (Config.freeStimulus s.draws) })

/-- 30_encoding.md R70: the ports of a stimulus word. -/
def Obligations.StimulusWordSetsPorts : Prop :=
  ∀ (mv : BitVec 14) (iw : InputWord),
    Ops.ports (stimWord mv iw) =
      { sysRst := iw.getLsbD 4, refreshTick := iw.getLsbD 3, secTick := iw.getLsbD 2, rstBtnN := iw.getLsbD 1
        modeBtnN := iw.getLsbD 0, mvIn := mv }

/-- Every fired operation runs, on the state of the cycle, and every register it writes ends the cycle with the value it
wrote; a register no fired operation writes holds (00_scope.md R6, R7; 30_encoding.md R74). -/
def Obligations.CycleLandsEveryWrite : Prop :=
  ∀ s t : State, nextIsCycle s = true → step s = .next t →
    (∀ i ∈ fired (Ops.conditionVector (Cycle.sampled s)), ∃ u : State,
      exec i (Cycle.sampled s) = .next u ∧ ∀ f ∈ Ops.writes i, copyRegister u t f = t) ∧
    (∀ f : Register, (∀ i ∈ fired (Ops.conditionVector (Cycle.sampled s)), f ∉ Ops.writes i) →
      copyRegister s t f = t)

/-- A word of the opcode table put where the step fetches is among the operations of the very next cycle, or is the
function the very next step calls. How a table word without a format is read and placed is the model's choice (log 13).
-/
def Obligations.FetchWordIsRunNext : Prop :=
  ∀ (s : State) (nbits w : Nat) (i : Instr), 0 < nbits → decodeTableWord nbits w = some i →
    (nextIsCycle (s.withFetchWord nbits w) = true ∧
      i ∈ fired (Ops.conditionVector (Cycle.sampled (s.withFetchWord nbits w)))) ∨
    step (s.withFetchWord nbits w) = exec i s

/-- HEADLINE: a cycle is 43_timebase_mode.md R169's Step, for every state and every input: the parallel operations with
their per-operation meanings come to the one function the spec writes down, with the stop before the first reset (log
6), the refused table (log 11) and the receiver (log 15). -/
def Obligations.CycleIsTheSpecStep : Prop :=
  ∀ s : State, nextIsCycle s = true → step s = ruleStep (Cycle.sampled s)

/-- sys_rst = 1 puts every register to its reset value, whatever the state and the other inputs (10_state.md R21). -/
def Obligations.SysRstOverridesEverything : Prop :=
  ∀ s : State, nextIsCycle s = true → (Cycle.sampled s).inp.sysRst = true →
    ∃ t : State, step s = .next t ∧ AtReset t ∧
      fired (Ops.conditionVector (Cycle.sampled s)) = [.sysReset]

/-- The reset state is the table of 10_state.md R42; that it counts as reset is the model's flag (log 6). -/
def Obligations.ResetStateIsTheTable : Prop := AtReset State.reset ∧ State.reset.resetSeen = true

/-- 10_state.md R44: an unreachable state stops in a cycle without reset. Before the first reset the other stop of R191
comes first (the model's choice, log 6). -/
def Obligations.UnreachableStateFaults : Prop :=
  ∀ s : State, nextIsCycle s = true → (Cycle.sampled s).inp.sysRst = false → s.resetSeen = true →
    (5999 < s.timeValue.toNat ∨ s.phase ∈ [Phase.reserved5, .reserved6, .reserved7]) →
    step s = .fault .unreachableState

/-- 70_reset_and_hazards.md R221: before the first reset a cycle without reset stops, whatever the registers hold (the
flag is the model's, log 6). -/
def Obligations.UnresetFaults : Prop :=
  ∀ s : State, nextIsCycle s = true → (Cycle.sampled s).inp.sysRst = false → s.resetSeen = false →
    step s = .fault .unreset

/-- 60_exceptions.md R191: when a clock cycle stops with a fault, and with which. That Unreset comes before
UnreachableState is the model's choice (log 6). -/
def Obligations.FaultsExactlyWhen : Prop :=
  ∀ s : State, nextIsCycle s = true →
    (step s = .fault .unreset ↔ (Cycle.sampled s).inp.sysRst = false ∧ s.resetSeen = false) ∧
    (step s = .fault .unreachableState ↔
      (Cycle.sampled s).inp.sysRst = false ∧ s.resetSeen = true ∧ ¬ Legal s)

/-- 43_timebase_mode.md R169: the step is total on legal states: a running state with an accepted table always has a
next state, whatever the inputs, and also with none supplied, where the model draws a free word (log 3). -/
def Obligations.LegalStateAlwaysSteps : Prop :=
  ∀ s : State, Running s → TableAccepted s.cfg → nextIsCycle s = true → ∃ t : State, step s = .next t

/-! ### Timebase and mode -/

/-- 43_timebase_mode.md R165: the next TimeValue in full. -/
def Obligations.TimeValueNext : Prop :=
  ∀ s t : State, nextIsCycle s = true → step s = .next t →
    t.timeValue.toNat =
      if (Cycle.sampled s).inp.sysRst = true then 0
      else if s.rstPrev = true ∧ (Cycle.sampled s).inp.rstBtnN = false then 0
      else if (Cycle.sampled s).inp.secTick = true then
        (if s.timeValue.toNat = 5999 then 0 else s.timeValue.toNat + 1)
      else s.timeValue.toNat

/-- 70_reset_and_hazards.md R225, 10_state.md R22: a second tick held high counts once in each cycle, modulo 6000. -/
def Obligations.HeldSecondTickCountsEveryCycle : Prop :=
  ∀ (s : State) (ws : List StimWord) (rest : List Stimulus),
    Running s → TableAccepted s.cfg → feeds s ws rest → noReset ws →
    (∀ w ∈ ws, w.getLsbD 2 = true ∧ w.getLsbD 1 = true) →
    ∃ t : State, Host.Core.run core ws.length s = .next t ∧
      t.timeValue.toNat = (s.timeValue.toNat + ws.length) % 6000

/-- 43_timebase_mode.md R164: a reset edge beats a second tick of the same cycle. -/
def Obligations.ResetEdgeBeatsTick : Prop :=
  ∀ s : State, Running s → TableAccepted s.cfg → nextIsCycle s = true → s.rstPrev = true →
    (Cycle.sampled s).inp.rstBtnN = false → (Cycle.sampled s).inp.secTick = true →
    (∃ t : State, step s = .next t ∧ t.timeValue = 0) ∧
      .tbTick ∉ fired (Ops.conditionVector (Cycle.sampled s))

/-- 43_timebase_mode.md R161 and R166 in the cycle: the buttons are sampled every cycle without reset. -/
def Obligations.ButtonsAreSampledEveryCycle : Prop :=
  ∀ s t : State, nextIsCycle s = true → (Cycle.sampled s).inp.sysRst = false → step s = .next t →
    t.rstPrev = (Cycle.sampled s).inp.rstBtnN ∧
      (t.modeQ = .voltage ↔ (Cycle.sampled s).inp.modeBtnN = false)

/-- 43_timebase_mode.md R167: the mode a service uses is the mode button's level in the cycle before the service. -/
def Obligations.ServiceUsesPreviousButtonLevel : Prop :=
  ∀ s t u : State, nextIsCycle s = true → (Cycle.sampled s).inp.sysRst = false → step s = .next t →
    nextIsCycle t = true → serviceCycle (Cycle.sampled t) = true → step t = .next u →
    u.frame = serviceFrame { Cycle.sampled t with
      modeQ := if (Cycle.sampled s).inp.modeBtnN then .clock else .voltage }

/-- 43_timebase_mode.md R168: minutes and seconds recombine, and TB_RESET fires exactly once in a held press, in its
first cycle: `s` follows a cycle in which the button read released, and reads pressed in all of `ws`. -/
def Obligations.HeldPressFiresOnce : Prop :=
  (∀ tv : Nat, tv ≤ 5999 → tv / 60 * 60 + tv % 60 = tv ∧ tv / 60 ≤ 99 ∧ tv % 60 ≤ 59) ∧
    (∀ (s : State) (ws : List StimWord) (rest : List Stimulus),
      Running s → TableAccepted s.cfg → s.rstPrev = true → feeds s ws rest → noReset ws →
      (∀ w ∈ ws, w.getLsbD 1 = false) → 0 < ws.length →
      resetEdgeFires (Cycle.sampled s) = true ∧ countCycles resetEdgeFires ws.length s = 1)

/-! ### The scheduler -/

/-- 42_multiplexer.md R130 in the cycle: the refresh flag's next value; a tick in a service cycle is kept. -/
def Obligations.PendingNext : Prop :=
  ∀ s t : State, nextIsCycle s = true → (Cycle.sampled s).inp.sysRst = false → step s = .next t →
    t.pending =
      ((Cycle.sampled s).inp.refreshTick || (s.pending && !(s.pending && decide (s.phase = .idle))))

/-- 42_multiplexer.md R131, R133: MUX_SERVICE fires in exactly the service cycles, a service shows the frame of the slot
before the advance and advances it by one mod 4, and the slot and the frame change in no other cycle without reset. -/
def Obligations.SlotAdvancesOncePerService : Prop :=
  ∀ s t : State, nextIsCycle s = true → (Cycle.sampled s).inp.sysRst = false → step s = .next t →
    (.muxService ∈ fired (Ops.conditionVector (Cycle.sampled s)) ↔ s.pending = true ∧ s.phase = .idle) ∧
    (s.pending = true ∧ s.phase = .idle →
      t.slot.toNat = (s.slot.toNat + 1) % 4 ∧ t.frame = serviceFrame (Cycle.sampled s)) ∧
    (¬ (s.pending = true ∧ s.phase = .idle) → t.slot = s.slot ∧ t.frame = s.frame)

/-- 42_multiplexer.md R140: a service's frame is a function of the time, the mode, the millivolts, the slot and the
parameters of its own cycle: two services that agree on those start the same frame, whatever else differs. -/
def Obligations.FrameDependsOnServiceCycleOnly : Prop :=
  ∀ a b a' b' : State,
    nextIsCycle a = true → nextIsCycle b = true →
    serviceCycle (Cycle.sampled a) = true → serviceCycle (Cycle.sampled b) = true →
    a.timeValue = b.timeValue → a.modeQ = b.modeQ → a.slot = b.slot → a.cfg = b.cfg →
    (a.modeQ = .voltage → (Cycle.sampled a).inp.mvIn = (Cycle.sampled b).inp.mvIn) →
    step a = .next a' → step b = .next b' → a'.frame = b'.frame

/-- 42_multiplexer.md R139 over any run: the service cycles are at most the refresh-tick cycles, one more if a request
was pending at the start; and no request is lost but those that merge or meet a reset. -/
def Obligations.ServicesAtMostTicks : Prop :=
  ∀ (n : Nat) (s t : State), Host.Core.run core n s = .next t →
    countCycles serviceCycle n s + (if t.pending then 1 else 0) ≤
        countCycles (fun c => c.inp.refreshTick) n s + (if s.pending then 1 else 0) ∧
      (countCycles (fun c => c.inp.sysRst) n s = 0 →
        countCycles serviceCycle n s + (if t.pending then 1 else 0) + countCycles tickLost n s =
          countCycles (fun c => c.inp.refreshTick) n s + (if s.pending then 1 else 0))

/-- 41_serializer.md R118: after a service cycle the next 34 cycles without reset are no service cycles, and the 35th
may be one, so services are at least 35 cycles apart. -/
def Obligations.ServicesAreThirtyFiveApart : Prop :=
  ∀ (s : State) (ws : List StimWord) (rest : List Stimulus) (k : Nat),
    Running s → TableAccepted s.cfg → s.pending = true → s.phase = .idle → feeds s ws rest → noReset ws →
    k < ws.length →
    ∃ t : State, Host.Core.run core (k + 1) s = .next t ∧ (k < 34 → t.phase ≠ .idle) ∧ (k = 34 → t.phase = .idle)

/-- 70_reset_and_hazards.md R224: refresh ticks at least 35 cycles apart are never lost. Each element of `ps` is one
period: a cycle with a refresh tick and at least 34 without one. -/
def Obligations.SpacedTicksAreNeverLost : Prop :=
  ∀ (s : State) (ps : List (StimWord × List StimWord)) (rest : List Stimulus),
    Running s → TableAccepted s.cfg → s.pending = false → s.phase = .idle →
    feeds s (ps.flatMap fun p => p.1 :: p.2) rest → noReset (ps.flatMap fun p => p.1 :: p.2) →
    (∀ p ∈ ps, p.1.getLsbD 3 = true ∧ 34 ≤ p.2.length ∧ ∀ w ∈ p.2, w.getLsbD 3 = false) →
    countCycles tickLost (ps.flatMap fun p => p.1 :: p.2).length s = 0 ∧
      countCycles serviceCycle (ps.flatMap fun p => p.1 :: p.2).length s = ps.length

/-! ### The serializer and the receiver -/

/-- 60_exceptions.md R198: the receiver in a cycle, from the line levels before and after the edge; that it reads
sr_data after the edge is the model's reading (log 15). A call of a function on its own moves no line (log 7). -/
def Obligations.ReceiverFollowsTheLines : Prop :=
  ∀ s t : State, step s = .next t →
    (s.outClk = false ∧ t.outClk = true → t.chain = (s.chain.extractLsb' 0 15) ++ BitVec.ofBool t.outData) ∧
    (¬ (s.outClk = false ∧ t.outClk = true) → t.chain = s.chain) ∧
    (s.outLatch = false ∧ t.outLatch = true → t.outReg = s.chain) ∧
    (¬ (s.outLatch = false ∧ t.outLatch = true) → t.outReg = s.outReg) ∧
    (nextIsCycle s = false → t.outClk = s.outClk ∧ t.outData = s.outData ∧ t.outLatch = s.outLatch)

/-- 41_serializer.md R117, the lines of one transfer: `s` is a service cycle's state; after the edge ending cycle t+1+2i
the data line holds frame[15-i] with the clock low, and after the edge ending cycle t+2+2i the clock is high over the
same data. -/
def Obligations.TransferTimeline : Prop :=
  ∀ (s : State) (ws : List StimWord) (rest : List Stimulus) (i : Nat),
    Running s → TableAccepted s.cfg → s.pending = true → s.phase = .idle → feeds s ws rest → noReset ws →
    ws.length = 35 → i < 16 →
    ∃ t u : State,
      Host.Core.run core (2 * i + 2) s = .next t ∧ t.outClk = false ∧
        t.outData = (serviceFrame (Cycle.sampled s)).getLsbD (15 - i) ∧ t.phase = .clkhi ∧ t.bitcnt.toNat = i ∧
      Host.Core.run core (2 * i + 3) s = .next u ∧ u.outClk = true ∧
        u.outData = (serviceFrame (Cycle.sampled s)).getLsbD (15 - i)

/-- 60_exceptions.md R199, 41_serializer.md R116 and R117, 42_multiplexer.md R133: from every running state in a service
cycle, whatever the inputs of the transfer but a reset, 35 cycles later the block is idle, the receiver's chain and outputs
both hold the frame of the service cycle's own time, mode, millivolts and slot, and the queue, which is the model's (log 2),
has moved by 35 entries. -/
def Obligations.TransferDeliversTheFrame : Prop :=
  ∀ (s : State) (ws : List StimWord) (rest : List Stimulus),
    Running s → TableAccepted s.cfg → s.pending = true → s.phase = .idle → feeds s ws rest → noReset ws →
    ws.length = 35 →
    ∃ t : State, Host.Core.run core 35 s = .next t ∧
      t.chain = serviceFrame (Cycle.sampled s) ∧ t.outReg = serviceFrame (Cycle.sampled s) ∧
      t.phase = .idle ∧ t.bitcnt = 15 ∧ t.frame = serviceFrame (Cycle.sampled s) ∧ t.slot = s.slot + 1 ∧
      t.outClk = false ∧ t.outLatch = true ∧ t.outData = (serviceFrame (Cycle.sampled s)).getLsbD 0 ∧
      t.stimulus = rest

/-- 30_encoding.md R82: the pseudo-instruction FRAME, from an idle running state with no request pending, shows the
digit of its slot in Clock mode and ends idle with no request pending. -/
def Obligations.FramePseudoShowsOneDigit : Prop :=
  ∀ (s : State) (mv : BitVec 14) (rest : List Stimulus),
    Running s → TableAccepted s.cfg → s.pending = false → s.phase = .idle →
    feeds s (assembleFrom mv [.frame]) rest →
    ∃ t : State, Host.Core.run core 36 s = .next t ∧ t.phase = .idle ∧ t.pending = false ∧
      t.slot = s.slot + 1 ∧ t.timeValue = s.timeValue ∧
      t.outReg = serviceFrame { s with modeQ := .clock }

/-- The invariant holds right after reset. -/
def Obligations.InvariantHoldsAtReset : Prop := Inv State.reset

/-- HEADLINE: every step keeps the invariant: the bounds of 10_state.md R43, the line levels of each phase
(41_serializer.md R113 to R119), the bits the chain has taken (60_exceptions.md R198), and a select byte of the table in
the frame. -/
def Obligations.EveryStepKeepsTheInvariant : Prop :=
  ∀ s t : State, Inv s → step s = .next t → Inv t

/-- 10_state.md R43: the bounds alone are kept by every step, and a reset cycle brings them about from any state. -/
def Obligations.EveryStepKeepsLegality : Prop :=
  ∀ s t : State, step s = .next t →
    (Running s → Running t) ∧ (nextIsCycle s = true → (Cycle.sampled s).inp.sysRst = true → Running t) ∧
      (nextIsCycle s = true → Running t)

/-- HEADLINE (20_memory.md R58, 41_serializer.md R119, 10_state.md R47): under the invariant, whenever the receiver's
outputs change, a transfer is ending, they become the whole frame, and with an accepted table its select byte enables
exactly one digit: no partly shifted frame ever shows. -/
def Obligations.OutputsChangeToWholeFrames : Prop :=
  ∀ s t : State, Inv s → step s = .next t → t.outReg ≠ s.outReg →
    s.phase = .lathi ∧ t.outReg = s.frame ∧ t.outLatch = true ∧
      (TableAccepted s.cfg → ∃ p : Fin 4, enablesOnly s.cfg t.outReg p)

/-- 70_reset_and_hazards.md R229: a reset during a transfer leaves the outputs alone in SETUP, CLKHI and LATLO (in LATLO
with the whole frame in the chain) and latches the complete frame in LATHI. -/
def Obligations.ResetMidTransfer : Prop :=
  ∀ s t : State, Inv s → nextIsCycle s = true → (Cycle.sampled s).inp.sysRst = true → step s = .next t →
    t.chain = s.chain ∧ AtReset t ∧
    (s.phase = .setup ∨ s.phase = .clkhi ∨ s.phase = .latlo → t.outReg = s.outReg) ∧
    (s.phase = .latlo → t.chain = s.frame) ∧
    (s.phase = .lathi → t.outReg = s.frame ∧ t.chain = s.frame)

/-- 10_state.md R41, 60_exceptions.md R196: no step writes the build parameters. -/
def Obligations.ParametersNeverChange : Prop :=
  ∀ (n : Nat) (s t : State), Host.Core.run core n s = .next t → t.cfg = s.cfg
end

