-- ==== Sys2Proof/Laws/State.lean ====
section
/-! SUPPORT. One lemma per field per update of the shared operations on State. -/

namespace Sys2Proof.Machine

variable (s t : State) (seg sel : Byte)

@[simp] theorem startTransfer_timeValue : (Ops.startTransfer s seg sel).timeValue = s.timeValue := rfl
@[simp] theorem startTransfer_rstPrev : (Ops.startTransfer s seg sel).rstPrev = s.rstPrev := rfl
@[simp] theorem startTransfer_modeQ : (Ops.startTransfer s seg sel).modeQ = s.modeQ := rfl
@[simp] theorem startTransfer_slot : (Ops.startTransfer s seg sel).slot = s.slot := rfl
@[simp] theorem startTransfer_pending : (Ops.startTransfer s seg sel).pending = s.pending := rfl
@[simp] theorem startTransfer_phase : (Ops.startTransfer s seg sel).phase = .setup := rfl
@[simp] theorem startTransfer_bitcnt : (Ops.startTransfer s seg sel).bitcnt = 0 := rfl
@[simp] theorem startTransfer_frame : (Ops.startTransfer s seg sel).frame = seg ++ sel := rfl
@[simp] theorem startTransfer_outClk : (Ops.startTransfer s seg sel).outClk = s.outClk := rfl
@[simp] theorem startTransfer_outData : (Ops.startTransfer s seg sel).outData = s.outData := rfl
@[simp] theorem startTransfer_outLatch : (Ops.startTransfer s seg sel).outLatch = s.outLatch := rfl
@[simp] theorem startTransfer_resetSeen : (Ops.startTransfer s seg sel).resetSeen = s.resetSeen := rfl
@[simp] theorem startTransfer_inp : (Ops.startTransfer s seg sel).inp = s.inp := rfl
@[simp] theorem startTransfer_chain : (Ops.startTransfer s seg sel).chain = s.chain := rfl
@[simp] theorem startTransfer_outReg : (Ops.startTransfer s seg sel).outReg = s.outReg := rfl
@[simp] theorem startTransfer_cfg : (Ops.startTransfer s seg sel).cfg = s.cfg := rfl
@[simp] theorem startTransfer_result : (Ops.startTransfer s seg sel).result = s.result := rfl
@[simp] theorem startTransfer_stimulus : (Ops.startTransfer s seg sel).stimulus = s.stimulus := rfl
@[simp] theorem startTransfer_draws : (Ops.startTransfer s seg sel).draws = s.draws := rfl

@[simp] theorem resetBlock_timeValue : (Ops.resetBlock s).timeValue = 0 := rfl
@[simp] theorem resetBlock_rstPrev : (Ops.resetBlock s).rstPrev = true := rfl
@[simp] theorem resetBlock_modeQ : (Ops.resetBlock s).modeQ = .clock := rfl
@[simp] theorem resetBlock_slot : (Ops.resetBlock s).slot = 0 := rfl
@[simp] theorem resetBlock_pending : (Ops.resetBlock s).pending = false := rfl
@[simp] theorem resetBlock_phase : (Ops.resetBlock s).phase = .idle := rfl
@[simp] theorem resetBlock_bitcnt : (Ops.resetBlock s).bitcnt = 0 := rfl
@[simp] theorem resetBlock_frame : (Ops.resetBlock s).frame = 0x0000 := rfl
@[simp] theorem resetBlock_outClk : (Ops.resetBlock s).outClk = false := rfl
@[simp] theorem resetBlock_outData : (Ops.resetBlock s).outData = false := rfl
@[simp] theorem resetBlock_outLatch : (Ops.resetBlock s).outLatch = true := rfl
@[simp] theorem resetBlock_resetSeen : (Ops.resetBlock s).resetSeen = true := rfl
@[simp] theorem resetBlock_inp : (Ops.resetBlock s).inp = s.inp := rfl
@[simp] theorem resetBlock_chain : (Ops.resetBlock s).chain = s.chain := rfl
@[simp] theorem resetBlock_outReg : (Ops.resetBlock s).outReg = s.outReg := rfl
@[simp] theorem resetBlock_cfg : (Ops.resetBlock s).cfg = s.cfg := rfl
@[simp] theorem resetBlock_result : (Ops.resetBlock s).result = s.result := rfl
@[simp] theorem resetBlock_stimulus : (Ops.resetBlock s).stimulus = s.stimulus := rfl
@[simp] theorem resetBlock_draws : (Ops.resetBlock s).draws = s.draws := rfl

@[simp] theorem receive_timeValue : (Ops.receive s t).timeValue = t.timeValue := rfl
@[simp] theorem receive_rstPrev : (Ops.receive s t).rstPrev = t.rstPrev := rfl
@[simp] theorem receive_modeQ : (Ops.receive s t).modeQ = t.modeQ := rfl
@[simp] theorem receive_slot : (Ops.receive s t).slot = t.slot := rfl
@[simp] theorem receive_pending : (Ops.receive s t).pending = t.pending := rfl
@[simp] theorem receive_phase : (Ops.receive s t).phase = t.phase := rfl
@[simp] theorem receive_bitcnt : (Ops.receive s t).bitcnt = t.bitcnt := rfl
@[simp] theorem receive_frame : (Ops.receive s t).frame = t.frame := rfl
@[simp] theorem receive_outClk : (Ops.receive s t).outClk = t.outClk := rfl
@[simp] theorem receive_outData : (Ops.receive s t).outData = t.outData := rfl
@[simp] theorem receive_outLatch : (Ops.receive s t).outLatch = t.outLatch := rfl
@[simp] theorem receive_resetSeen : (Ops.receive s t).resetSeen = t.resetSeen := rfl
@[simp] theorem receive_inp : (Ops.receive s t).inp = t.inp := rfl
@[simp] theorem receive_cfg : (Ops.receive s t).cfg = t.cfg := rfl
@[simp] theorem receive_result : (Ops.receive s t).result = t.result := rfl
@[simp] theorem receive_stimulus : (Ops.receive s t).stimulus = t.stimulus := rfl
@[simp] theorem receive_draws : (Ops.receive s t).draws = t.draws := rfl

/-- What one operation puts into the next state of the cycle, operation by operation. -/
@[simp] theorem commit_sysReset (acc : State) : Ops.commit .sysReset t acc =
    { acc with
      timeValue := t.timeValue, rstPrev := t.rstPrev, modeQ := t.modeQ, slot := t.slot, pending := t.pending
      phase := t.phase, bitcnt := t.bitcnt, frame := t.frame, outClk := t.outClk, outData := t.outData
      outLatch := t.outLatch, resetSeen := t.resetSeen } := rfl

@[simp] theorem commit_modeSample (acc : State) : Ops.commit .modeSample t acc =
    { acc with modeQ := t.modeQ } := rfl
@[simp] theorem commit_rstEdge (acc : State) : Ops.commit .rstEdge t acc =
    { acc with rstPrev := t.rstPrev } := rfl
@[simp] theorem commit_tbReset (acc : State) : Ops.commit .tbReset t acc =
    { acc with timeValue := t.timeValue } := rfl
@[simp] theorem commit_tbTick (acc : State) : Ops.commit .tbTick t acc =
    { acc with timeValue := t.timeValue } := rfl
@[simp] theorem commit_refreshReq (acc : State) : Ops.commit .refreshReq t acc =
    { acc with pending := t.pending } := rfl
@[simp] theorem commit_muxService (acc : State) : Ops.commit .muxService t acc =
    { acc with slot := t.slot, frame := t.frame, bitcnt := t.bitcnt, phase := t.phase, pending := t.pending } := rfl
@[simp] theorem commit_serIdle (acc : State) : Ops.commit .serIdle t acc =
    acc := rfl
@[simp] theorem commit_serSetup (acc : State) : Ops.commit .serSetup t acc =
    { acc with outData := t.outData, outClk := t.outClk, phase := t.phase } := rfl
@[simp] theorem commit_serClkhi (acc : State) : Ops.commit .serClkhi t acc =
    { acc with outClk := t.outClk, bitcnt := t.bitcnt, phase := t.phase } := rfl
@[simp] theorem commit_serLatlo (acc : State) : Ops.commit .serLatlo t acc =
    { acc with outClk := t.outClk, outLatch := t.outLatch, phase := t.phase } := rfl
@[simp] theorem commit_serLathi (acc : State) : Ops.commit .serLathi t acc =
    { acc with outLatch := t.outLatch, phase := t.phase } := rfl

end Sys2Proof.Machine
end

