-- ==== Sys2Proof/Laws/Ops.lean ====
section
/-! SUPPORT. What each shared operation can do, said once. -/

namespace Sys2Proof.Machine

open Sys2Proof.Safety

theorem unreachable_eq_false_iff (s : State) : Ops.unreachable s = false ↔ Legal s := by
  unfold Ops.unreachable Tables.tvLast
  rw [Bool.or_eq_false_iff, decide_eq_false_iff_not, Nat.not_lt]
  cases h : s.phase <;> simp [Ops.reserved, Legal, h]

/-- A block operation of a running state goes on. -/
theorem operate_running {s : State} (h : Running s) (go : State → Host.Outcome State Fault Refusal) :
    Ops.operate s go = go s := by
  have hu := (unreachable_eq_false_iff s).2 h.2
  simp [Ops.operate, h.1, hu]

/-- A block operation that answers a next state ran from a running state. -/
theorem operate_next {s t : State} {go : State → Host.Outcome State Fault Refusal}
    (h : Ops.operate s go = .next t) : Running s ∧ go s = .next t := by
  unfold Ops.operate at h
  split at h
  · cases h
  · split at h
    · cases h
    · rename_i hr hu
      exact ⟨⟨by simpa using hr, (unreachable_eq_false_iff s).1 (by simpa using hu)⟩, h⟩

theorem operate_unreset {s : State} (h : s.resetSeen = false) (go : State → Host.Outcome State Fault Refusal) :
    Ops.operate s go = .fault .unreset := by
  simp [Ops.operate, h]

theorem operate_illegal {s : State} (h : s.resetSeen = true) (hl : ¬ Legal s)
    (go : State → Host.Outcome State Fault Refusal) : Ops.operate s go = .fault .unreachableState := by
  have hu : Ops.unreachable s = true := by
    rw [← Bool.not_eq_false, unreachable_eq_false_iff]; exact hl
  simp [Ops.operate, h, hu]

/-- The receiver's chain after a cycle (60_exceptions.md R198). -/
theorem receive_chain (s t : State) : (Ops.receive s t).chain =
    if s.outClk = false ∧ t.outClk = true then s.chain.extractLsb' 0 15 ++ bit t.outData else s.chain := by
  cases h : s.outClk <;> cases h' : t.outClk <;> simp [Ops.receive, h, h']

/-- The receiver's outputs after a cycle (60_exceptions.md R198). -/
theorem receive_outReg (s t : State) : (Ops.receive s t).outReg =
    if s.outLatch = false ∧ t.outLatch = true then s.chain else s.outReg := by
  cases h : s.outLatch <;> cases h' : t.outLatch <;> simp [Ops.receive, h, h']

/-- Sampling the ports changes the ports, the queue and the draw count only. -/
theorem sampled_registers (s : State) : ∃ inp rest n,
    Cycle.sampled s = { s with inp := inp, stimulus := rest, draws := n } := by
  unfold Cycle.sampled
  split
  · exact ⟨_, _, s.draws, rfl⟩
  · exact ⟨_, s.stimulus, _, rfl⟩

/-- A step whose next entry is no call is a clock cycle of the sampled state. -/
theorem step_cycle {s : State} (h : nextIsCycle s = true) : step s = Cycle.clock (Cycle.sampled s) := by
  unfold nextIsCycle at h
  unfold step Cycle.advance
  rcases hs : s.stimulus with _ | ⟨_ | w, rest⟩ <;> simp_all

/-- A step whose next entry is a call runs the function of its word. -/
theorem step_call {s : State} (h : nextIsCycle s = false) : ∃ w rest, s.stimulus = .call w :: rest ∧
    step s = exec (decodeCall w) { s with stimulus := rest } := by
  unfold nextIsCycle at h
  split at h
  · rename_i w rest hs
    exact ⟨w, rest, hs, by simp [step, Cycle.advance, hs]⟩
  · cases h

/-- A combinational function that answers changes `result` only. -/
theorem exec_decodeCall_next {w : CallWord} {s t : State} (h : exec (decodeCall w) s = .next t) :
    t = { s with result := t.result } := by
  cases w with
  | enc w =>
    simp only [decodeCall] at h
    split at h
    · cases h; rfl
    · split at h <;> (cases h; rfl)
  | sel p =>
    simp only [decodeCall, exec, execSelect] at h
    split at h
    · cases h; rfl
    · cases h
  | tvd w =>
    simp only [decodeCall, exec, execClockDigits] at h
    split at h
    · cases h
    · cases h; rfl
  | mvd w => cases h; rfl
  | mv w => cases h; rfl

end Sys2Proof.Machine
end

