-- ==== Sys2Proof/Laws/Cycle.lean ====
section
/-! SUPPORT. What sampling, running the fired operations and running the core do, said once. -/

namespace Sys2Proof.Machine

open Sys2Proof.Safety

section sampled

variable (s : State)

@[simp] theorem sampled_timeValue : (Cycle.sampled s).timeValue = s.timeValue := by unfold Cycle.sampled; split <;> rfl
@[simp] theorem sampled_rstPrev : (Cycle.sampled s).rstPrev = s.rstPrev := by unfold Cycle.sampled; split <;> rfl
@[simp] theorem sampled_modeQ : (Cycle.sampled s).modeQ = s.modeQ := by unfold Cycle.sampled; split <;> rfl
@[simp] theorem sampled_slot : (Cycle.sampled s).slot = s.slot := by unfold Cycle.sampled; split <;> rfl
@[simp] theorem sampled_pending : (Cycle.sampled s).pending = s.pending := by unfold Cycle.sampled; split <;> rfl
@[simp] theorem sampled_phase : (Cycle.sampled s).phase = s.phase := by unfold Cycle.sampled; split <;> rfl
@[simp] theorem sampled_bitcnt : (Cycle.sampled s).bitcnt = s.bitcnt := by unfold Cycle.sampled; split <;> rfl
@[simp] theorem sampled_frame : (Cycle.sampled s).frame = s.frame := by unfold Cycle.sampled; split <;> rfl
@[simp] theorem sampled_outClk : (Cycle.sampled s).outClk = s.outClk := by unfold Cycle.sampled; split <;> rfl
@[simp] theorem sampled_outData : (Cycle.sampled s).outData = s.outData := by unfold Cycle.sampled; split <;> rfl
@[simp] theorem sampled_outLatch : (Cycle.sampled s).outLatch = s.outLatch := by unfold Cycle.sampled; split <;> rfl
@[simp] theorem sampled_resetSeen : (Cycle.sampled s).resetSeen = s.resetSeen := by unfold Cycle.sampled; split <;> rfl
@[simp] theorem sampled_chain : (Cycle.sampled s).chain = s.chain := by unfold Cycle.sampled; split <;> rfl
@[simp] theorem sampled_outReg : (Cycle.sampled s).outReg = s.outReg := by unfold Cycle.sampled; split <;> rfl
@[simp] theorem sampled_cfg : (Cycle.sampled s).cfg = s.cfg := by unfold Cycle.sampled; split <;> rfl
@[simp] theorem sampled_result : (Cycle.sampled s).result = s.result := by unfold Cycle.sampled; split <;> rfl

end sampled

/-- An operation that answers puts its writes into the gathered state, and the rest of the cycle goes on. -/
theorem runFired_next {s t acc : State} {i : Instr} {is : List Instr} (h : exec i s = .next t) :
    Cycle.runFired s (i :: is) acc = Cycle.runFired s is (Ops.commit i t acc) := by
  simp [Cycle.runFired, h]

/-- Where the first operation stops, the cycle stops with its fault. -/
theorem runFired_fault {s acc : State} {r : Fault} {i : Instr} {is : List Instr} (h : exec i s = .fault r) :
    Cycle.runFired s (i :: is) acc = .fault r := by
  simp [Cycle.runFired, h]

/-- A cycle that answers a next state had an answer from every operation it ran. -/
theorem runFired_all {s : State} : ∀ (is : List Instr) (acc t : State),
    Cycle.runFired s is acc = .next t → ∀ i ∈ is, ∃ u, exec i s = .next u
  | [], _, _, _, i, hi => by cases hi
  | j :: js, acc, t, h, i, hi => by
    simp only [Cycle.runFired] at h
    split at h
    · rename_i w hw
      rcases List.mem_cons.1 hi with rfl | hi
      · exact ⟨w, hw⟩
      · exact runFired_all js _ _ h i hi
    · cases h
    · cases h

/-- A run of `n + 1` steps is a step and a run of `n`. -/
theorem run_succ {s t : State} (n : Nat) (h : step s = .next t) :
    Host.Core.run core (n + 1) s = Host.Core.run core n t := by
  simp only [Host.Core.run, show core.step s = .next t from h]

/-- A run of `n + 1` steps that answers took a step that answers. -/
theorem run_succ_inv {s t : State} {n : Nat} (h : Host.Core.run core (n + 1) s = .next t) :
    ∃ u, step s = .next u ∧ Host.Core.run core n u = .next t := by
  simp only [Host.Core.run] at h
  split at h
  · rename_i u hu
    exact ⟨u, hu, h⟩
  · cases h
  · cases h

/-- Runs add up. -/
theorem run_add {s t : State} : ∀ {n : Nat} (m : Nat), Host.Core.run core n s = .next t →
    Host.Core.run core (n + m) s = Host.Core.run core m t := by
  intro n
  induction n generalizing s with
  | zero => intro m h; cases h; rw [Nat.zero_add]
  | succ n ih =>
    intro m h
    obtain ⟨u, h1, h2⟩ := run_succ_inv h
    rw [show n + 1 + m = (n + m) + 1 by omega, run_succ _ h1, ih m h2]

/-- The first of the words a queue begins with is the next cycle's. -/
theorem feeds_cons {s : State} {w : StimWord} {ws : List StimWord} {rest : List Stimulus} (h : feeds s (w :: ws) rest) :
    nextIsCycle s = true ∧
      Cycle.sampled s = { s with stimulus := ws.map Stimulus.cycle ++ rest, inp := Ops.ports w } := by
  have h : s.stimulus = .cycle w :: (ws.map .cycle ++ rest) := h
  exact ⟨by simp [nextIsCycle, h], by simp [Cycle.sampled, h]⟩

end Sys2Proof.Machine
end

