-- ==== Sys2Proof/Laws/Decode.lean ====
section
/-! SUPPORT. What the operation map fires, read off the fields of the condition vector. -/

namespace Sys2Proof.Machine

/-- The SER operation of a phase and a pending flag. -/
def serOp (ph : Phase) (pending : Bool) : Instr :=
  match ph with
  | .idle => if pending then .muxService else .serIdle
  | .setup => .serSetup
  | .clkhi => .serClkhi
  | .latlo => .serLatlo
  | .lathi => .serLathi
  | .reserved5 => .reservedPhase5
  | .reserved6 => .reservedPhase6
  | .reserved7 => .reservedPhase7

/-- The TIME operation of a cycle, if one fires. -/
def timeOps (rstPrev rstBtnN secTick : Bool) : List Instr :=
  if rstPrev && !rstBtnN then [.tbReset] else if secTick then [.tbTick] else []

/-- The REQ operation of a cycle, if it fires. -/
def reqOps (refreshTick : Bool) : List Instr := if refreshTick then [.refreshReq] else []

@[simp] theorem phaseOf_phaseCode (p : Phase) : Ops.phaseOf (Ops.phaseCode p) = p := by cases p <;> rfl

theorem phaseCode_phaseOf : ∀ c : BitVec 3, Ops.phaseCode (Ops.phaseOf c) = c := by decide

/-- Every phase, for closed case checks. -/
def allPhases : List Phase := [.idle, .setup, .clkhi, .latlo, .lathi, .reserved5, .reserved6, .reserved7]

theorem mem_allPhases (p : Phase) : p ∈ allPhases := by cases p <;> decide

/-- `fired_of_fields` as one closed check over the 1024 condition vectors. -/
theorem fired_of_all_fields :
    ∀ ph ∈ allPhases, ∀ q p r f s b m : Bool,
      fired (Ops.phaseCode ph ++ bit q ++ bit p ++ bit r ++ bit f ++ bit s ++ bit b ++ bit m) =
        if r then [.sysReset]
        else [.modeSample, .rstEdge] ++ timeOps p b s ++ reqOps f ++ [serOp ph q] := by
  decide +kernel

/-- The fired operations of a condition vector put together from its fields. -/
theorem fired_of_fields (ph : Phase) (q p r f s b m : Bool) :
    fired (Ops.phaseCode ph ++ bit q ++ bit p ++ bit r ++ bit f ++ bit s ++ bit b ++ bit m) =
      if r then [.sysReset]
      else [.modeSample, .rstEdge] ++ timeOps p b s ++ reqOps f ++ [serOp ph q] :=
  fired_of_all_fields ph (mem_allPhases ph) q p r f s b m

/-- What a cycle fires, from the registers and ports it is in: cite this rather than unfold `fired`. -/
theorem fired_conditionVector (s : State) :
    fired (Ops.conditionVector s) =
      if s.inp.sysRst then [.sysReset]
      else [.modeSample, .rstEdge] ++ timeOps s.rstPrev s.inp.rstBtnN s.inp.secTick ++ reqOps s.inp.refreshTick
        ++ [serOp s.phase s.pending] :=
  fired_of_fields ..

end Sys2Proof.Machine
end

