-- ==== Sys2Proof/Laws/Operands.lean ====
section
/-! SUPPORT. What the combinational functions answer. -/

namespace Sys2Proof.Machine.Operands

open Sys2Proof.Safety

theorem selTableOk_iff (cfg : Config.Params) : selTableOk cfg = true ↔ TableAccepted cfg := by
  unfold selTableOk
  rw [decide_eq_true_eq]
  simp only [TableAccepted, selEntry, enables]
  constructor
  · intro h
    refine ⟨fun p q hpq he => hpq ((h p q).1 he), fun p q => ?_⟩
    have := (h p q).2
    rw [Bool.not_eq_eq_eq_not] at this
    rw [this, ← decide_not]
    exact decide_eq_decide.2 ⟨Ne.symm, Ne.symm⟩
  · rintro ⟨ha, hb⟩ p q
    refine ⟨fun he => by_contra fun hpq => ha p q hpq he, ?_⟩
    rw [hb p q]
    by_cases h : p = q <;> simp [h, eq_comm]

theorem selectByte_accepted {cfg : Config.Params} (h : TableAccepted cfg) (p : BitVec 2) :
    selectByte cfg p = some cfg.selTable[p.toFin] := by
  simp [selectByte, (selTableOk_iff cfg).2 h, selEntry]

theorem selectByte_refused {cfg : Config.Params} (h : ¬ TableAccepted cfg) (p : BitVec 2) :
    selectByte cfg p = none := by
  simp [selectByte, mt (selTableOk_iff cfg).1 h]

theorem selectByte_eq_some {cfg : Config.Params} {p : BitVec 2} {b : Byte} (h : selectByte cfg p = some b) :
    TableAccepted cfg ∧ b = cfg.selTable[p.toFin] := by
  unfold selectByte at h
  split at h
  · rename_i hk
    exact ⟨(selTableOk_iff cfg).1 hk, by cases h; rfl⟩
  · cases h

/-- Suppression by concatenation is masking or setting bit 7. -/
theorem suppress_eq (dp : Bool) : ∀ p : Byte, suppress dp p = if dp then p ||| 0x80 else p &&& 0x7F := by
  cases dp <;> decide +kernel

/-- ENCODE of a digit 0 to 9 is the rule's pattern. -/
theorem encodeByte_eq (cfg : Config.Params) (d : BitVec 4) (sup : Bool) (h : d.toNat ≤ 9) :
    encodeByte cfg d sup = pattern cfg d.toNat sup := by
  have h' : d.toNat < 10 := by omega
  have hget : cfg.segTable.toList.getD d.toNat 0 = cfg.segTable[d.toNat] := by
    rw [List.getD_eq_getElem?_getD, List.getElem?_eq_getElem (by simpa using h')]
    simp
  simp only [encodeByte, h', dif_pos, pattern, hget, suppress_eq]

theorem encodeByte_outside (cfg : Config.Params) (d : BitVec 4) (sup : Bool) (h : 9 < d.toNat) :
    encodeByte cfg d sup = Config.encodeOutside d sup := by
  simp [encodeByte, show ¬ d.toNat < 10 by omega]

theorem clamp_toNat (v : BitVec 14) : (clamp v).toNat = min v.toNat 9999 := by
  have := v.isLt
  simp only [clamp, Tables.mvMax, BitVec.toNat_ofNat]
  omega

theorem tickTime_eq (tv : BitVec 13) :
    tickTime tv = BitVec.ofNat 13 (if tv.toNat = 5999 then 0 else tv.toNat + 1) := by
  unfold tickTime Tables.tvLast
  split
  · rfl
  · apply BitVec.eq_of_toNat_eq; simp [BitVec.toNat_add]

theorem slot_cases (p : BitVec 2) : p = 0 ∨ p = 1 ∨ p = 2 ∨ p = 3 := by revert p; decide

/-- The Clock digit and flag are the slot map's, and the digit is at most 9. -/
theorem clockDigit_eq (slot : BitVec 2) (tv : BitVec 13) (mv : Nat) (h : tv.toNat ≤ 5999) :
    (clockDigit slot tv).1.toNat = (slotMap .clock slot.toNat tv.toNat mv).1 ∧
      (clockDigit slot tv).2 = (slotMap .clock slot.toNat tv.toNat mv).2 ∧ (clockDigit slot tv).1.toNat ≤ 9 := by
  rcases slot_cases slot with rfl | rfl | rfl | rfl <;>
    simp [clockDigit, slotMap] <;> omega

/-- The Voltage digit and flag are the slot map's, and the digit is at most 9. -/
theorem voltDigit_eq (slot : BitVec 2) (mv : BitVec 14) (tv : Nat) (h : mv.toNat ≤ 9999) :
    (voltDigit slot mv).1.toNat = (slotMap .voltage slot.toNat tv mv.toNat).1 ∧
      (voltDigit slot mv).2 = (slotMap .voltage slot.toNat tv mv.toNat).2 ∧ (voltDigit slot mv).1.toNat ≤ 9 := by
  rcases slot_cases slot with rfl | rfl | rfl | rfl <;>
    simp [voltDigit, Tables.mvMax, h, slotMap] <;> omega

/-- The segment byte of a service is the pattern of the digit and flag the slot map shows. -/
theorem activeSegment_eq (s : State) (h : s.timeValue.toNat ≤ 5999) :
    activeSegment s = pattern s.cfg (shown s).1 (shown s).2 := by
  unfold activeSegment activeDigit shown
  cases hm : s.modeQ
  · obtain ⟨h1, h2, h3⟩ := clockDigit_eq s.slot s.timeValue (min s.inp.mvIn.toNat 9999) h
    simp only [encodeByte_eq _ _ _ h3, h1, h2]
  · obtain ⟨h1, h2, h3⟩ := voltDigit_eq s.slot (clamp s.inp.mvIn) s.timeValue.toNat (by rw [clamp_toNat]; omega)
    simp only [encodeByte_eq _ _ _ h3, h1, h2, clamp_toNat]

end Sys2Proof.Machine.Operands
end

