-- ==== Sys2Proof/Laws/PerInstr.lean ====
section
/-! SUPPORT. A statement per instruction: the word the encoder writes for a CV operation is its row's match value
(30_encoding.md R77, R79), and no bit of it lies outside the row's mask. -/

namespace Sys2Proof.Laws.RowWord

/-- The condition vector an operation encodes to is its row's match value, within the row's mask. A combinational function has
no CV row, and its word is no condition vector. -/
def Statement (i : Instr) : Prop :=
  match encode i with
  | .cv w => ∃ r ∈ cvRows, r.op = i ∧ r.pattern = w ∧ w &&& r.mask = w
  | .call _ | .start _ _ => ∀ r ∈ cvRows, r.op ≠ i

theorem sysReset : Statement .sysReset := by simp only [Statement, Sys2Proof.encode]; decide
theorem modeSample : Statement .modeSample := by simp only [Statement, Sys2Proof.encode]; decide
theorem rstEdge : Statement .rstEdge := by simp only [Statement, Sys2Proof.encode]; decide
theorem tbReset : Statement .tbReset := by simp only [Statement, Sys2Proof.encode]; decide
theorem tbTick : Statement .tbTick := by simp only [Statement, Sys2Proof.encode]; decide
theorem refreshReq : Statement .refreshReq := by simp only [Statement, Sys2Proof.encode]; decide
theorem muxService : Statement .muxService := by simp only [Statement, Sys2Proof.encode]; decide
theorem serIdle : Statement .serIdle := by simp only [Statement, Sys2Proof.encode]; decide
theorem serSetup : Statement .serSetup := by simp only [Statement, Sys2Proof.encode]; decide
theorem serClkhi : Statement .serClkhi := by simp only [Statement, Sys2Proof.encode]; decide
theorem serLatlo : Statement .serLatlo := by simp only [Statement, Sys2Proof.encode]; decide
theorem serLathi : Statement .serLathi := by simp only [Statement, Sys2Proof.encode]; decide
theorem reservedPhase5 : Statement .reservedPhase5 := by simp only [Statement, Sys2Proof.encode]; decide
theorem reservedPhase6 : Statement .reservedPhase6 := by simp only [Statement, Sys2Proof.encode]; decide
theorem reservedPhase7 : Statement .reservedPhase7 := by simp only [Statement, Sys2Proof.encode]; decide
theorem encode (d : BitVec 4) (sup : Bool) : Statement (.encode d sup) := by
  simp [Statement, Sys2Proof.encode, cvRows]
theorem reservedEncD10111415 (d : BitVec 4) (sup : Bool) : Statement (.reservedEncD10111415 d sup) := by
  simp [Statement, Sys2Proof.encode, cvRows]
theorem reservedEncD12131415 (d : BitVec 4) (sup : Bool) : Statement (.reservedEncD12131415 d sup) := by
  simp [Statement, Sys2Proof.encode, cvRows]
theorem select (p : BitVec 2) : Statement (.select p) := by
  simp [Statement, Sys2Proof.encode, cvRows]
theorem clockDigits (slot : BitVec 2) (tv : BitVec 13) : Statement (.clockDigits slot tv) := by
  simp [Statement, Sys2Proof.encode, cvRows]
theorem voltDigits (slot : BitVec 2) (mv : BitVec 14) : Statement (.voltDigits slot mv) := by
  simp [Statement, Sys2Proof.encode, cvRows]
theorem clampMv (mv : BitVec 14) : Statement (.clampMv mv) := by
  simp [Statement, Sys2Proof.encode, cvRows]
theorem serStart (seg sel : Byte) : Statement (.serStart seg sel) := by
  simp [Statement, Sys2Proof.encode, cvRows]

end Sys2Proof.Laws.RowWord
end

