-- ==== Sys2Proof/Tests/Slice0.lean ====
section
/-! SUPPORT. Tests on fixed values, each expected value from the spec (95_test_vectors.md unless said otherwise), and one
witness for the hypotheses of every obligation that has some. -/

namespace Sys2Proof.Tests

set_option Elab.async false

open Sys2Proof.Machine Sys2Proof.Safety

/-! ### Helpers -/

/-- The state an outcome answers. -/
def after : Host.Outcome State Fault Refusal → Option State
  | .next t => some t
  | .fault _ => none
  | .refused _ => none

/-- The fault an outcome answers. -/
def faultOf : Host.Outcome State Fault Refusal → Option Fault
  | .next _ => none
  | .fault r => some r
  | .refused _ => none

theorem exists_next (o : Host.Outcome State Fault Refusal) (h : (after o).isSome = true) : ∃ t, o = .next t := by
  cases o with
  | next t => exact ⟨t, rfl⟩
  | fault r => cases h
  | refused r => cases h

theorem noReset_of {ws : List StimWord} (h : (ws.all fun w => !w.getLsbD 4) = true) : noReset ws := fun w hw => by
  simpa using List.all_eq_true.1 h w hw

/-- Whether an outcome answers a state with a property. -/
def answers (o : Host.Outcome State Fault Refusal) (p : State → Bool) : Bool :=
  match o with
  | .next t => p t
  | .fault _ => false
  | .refused _ => false

theorem exists_answer {o : Host.Outcome State Fault Refusal} {p : State → Bool} (h : answers o p = true) :
    ∃ t, o = .next t ∧ p t = true := by
  cases o with
  | next t => exact ⟨t, rfl, h⟩
  | fault r => cases h
  | refused r => cases h

/-- The reset state with these clock cycles to come. -/
def fed (ws : List StimWord) : State := { State.reset with stimulus := ws.map Stimulus.cycle }

/-- The reset state with a request pending and these clock cycles to come. -/
def serving (ws : List StimWord) : State := { fed ws with pending := true }

/-- The end of the transfer of 0xC0FE: LATHI, the frame whole in the chain (95_test_vectors.md section 2.3, cycle t+34). -/
def lathi (ws : List StimWord) : State :=
  { fed ws with phase := .lathi, frame := 0xC0FE, bitcnt := 15, chain := 0xC0FE, outLatch := false, slot := 1 }

/-- Mid-transfer of 0xC0FE at bit 4, CLKHI: four bits shifted (95_test_vectors.md section 2.3, cycle t+10). -/
def clkhi (ws : List StimWord) : State :=
  { fed ws with phase := .clkhi, frame := 0xC0FE, bitcnt := 4, chain := 0x000C, slot := 1 }

/-- The reset state with the select table of the repository defect, two entries equal (90_conflicts.md C4). -/
def badTable : State :=
  { State.reset with cfg := { Tables.defaults with selTable := #v[0xFE, 0xFE, 0xFB, 0xF7] } }

/-! ### Well-formedness: an ill-formed term for each check -/

theorem test_illformed_encode : (Instr.encode 10 false).wellFormed = false := by decide +kernel
theorem test_wellformed_encode : (Instr.encode 9 true).wellFormed = true := by decide +kernel
theorem test_illformed_reserved_d10111415 : (Instr.reservedEncD10111415 12 false).wellFormed = false := by decide +kernel
theorem test_illformed_reserved_d12131415 : (Instr.reservedEncD12131415 14 false).wellFormed = false := by decide +kernel

/-! ### Decoding: a word of each row, bit by bit from the pattern strings of 30_encoding.md R77 and R79, `HHH Q P R F S B M`,
and the formats of R72 -/

theorem test_decode_sysReset : decode (.cv 0b0000010000) = [.sysReset] := by decide +kernel
/-- IW 0x1F: reset with every other input high (section 2.8). -/
theorem test_decode_sysReset_all_high : decode (.cv 0b1111111111) = [.sysReset] := by decide +kernel
theorem test_decode_modeSample_rstEdge_serIdle : decode (.cv 0b0000000011) = [.modeSample, .rstEdge, .serIdle] := by decide +kernel
theorem test_decode_tbReset : decode (.cv 0b0000100000) = [.modeSample, .rstEdge, .tbReset, .serIdle] := by decide +kernel
/-- The reset edge beats a second tick (30_encoding.md R75). -/
theorem test_decode_tbReset_beats_tick : Instr.tbTick ∉ decode (.cv 0b0000100100) := by decide +kernel
theorem test_decode_tbTick : decode (.cv 0b0000000111) = [.modeSample, .rstEdge, .tbTick, .serIdle] := by decide +kernel
theorem test_decode_refreshReq : decode (.cv 0b0000001011) = [.modeSample, .rstEdge, .refreshReq, .serIdle] := by decide +kernel
theorem test_decode_muxService : decode (.cv 0b0001000011) = [.modeSample, .rstEdge, .muxService] := by decide +kernel
theorem test_decode_serSetup : decode (.cv 0b0010000011) = [.modeSample, .rstEdge, .serSetup] := by decide +kernel
theorem test_decode_serClkhi : decode (.cv 0b0100000011) = [.modeSample, .rstEdge, .serClkhi] := by decide +kernel
theorem test_decode_serLatlo : decode (.cv 0b0111000011) = [.modeSample, .rstEdge, .serLatlo] := by decide +kernel
theorem test_decode_serLathi : decode (.cv 0b1000000011) = [.modeSample, .rstEdge, .serLathi] := by decide +kernel
theorem test_decode_reservedPhase5 : decode (.cv 0b1010000011) = [.modeSample, .rstEdge, .reservedPhase5] := by decide +kernel
theorem test_decode_reservedPhase6 : decode (.cv 0b1100000011) = [.modeSample, .rstEdge, .reservedPhase6] := by decide +kernel
theorem test_decode_reservedPhase7 : decode (.cv 0b1110000011) = [.modeSample, .rstEdge, .reservedPhase7] := by decide +kernel
theorem test_decode_encode : decode (.call (.enc 0b11000)) = [.encode 8 true] := by decide +kernel
theorem test_decode_reservedEnc10 : decode (.call (.enc 0b01010)) = [.reservedEncD10111415 10 false] := by decide +kernel
theorem test_decode_reservedEnc12 : decode (.call (.enc 0b11100)) = [.reservedEncD12131415 12 true] := by decide +kernel
theorem test_decode_select : decode (.call (.sel 0b10)) = [.select 2] := by decide +kernel
/-- `{slot = 1, tv = 125}`. -/
theorem test_decode_clockDigits : decode (.call (.tvd 0b010000001111101)) = [.clockDigits 1 125] := by decide +kernel
/-- `{slot = 2, mv = 1650}`. -/
theorem test_decode_voltDigits : decode (.call (.mvd 0b1000011001110010)) = [.voltDigits 2 1650] := by decide +kernel
theorem test_decode_clampMv : decode (.call (.mv 0b10111011100000)) = [.clampMv 12000] := by decide +kernel
theorem test_decode_serStart : decode (.start 0xC0 0xFE) = [.serStart 0xC0 0xFE] := by decide +kernel
/-- A number of eleven bits is no condition vector. -/
theorem test_decode_tooWide : readWord .cv 0x400 = .error (.tooWide .cv) := rfl
/-- The rows of spec/opcode_table.json whose bits name one operation (log 13). -/
theorem test_decodeTableWord_reset : decodeTableWord 8 0x10 = some .sysReset := by decide +kernel
theorem test_decodeTableWord_service : decodeTableWord 16 0x040 = some .muxService := by decide +kernel

/-! ### The stimulus assembler (30_encoding.md R82) against the SW column of section 3 -/

/-- P3, lines 1, 4, 6. -/
theorem test_assemble_p3 : assemble [.named .sec 1, .named .prbsec 1, .named .prb 1] = [0x00007, 0x00005, 0x00001] := by
  decide +kernel
/-- P2, line 1, and the first words of line 2. -/
theorem test_assemble_p2 : (assemble [.cyc 0x12 (some 1650) 1, .framev]).take 3 = [0x0CE52, 0x0CE4A, 0x0CE42] := by decide +kernel

/-! ### One step or one instruction at a time -/

/-- Section 2.8: from an unreachable state, never reset, IW 0x10. -/
theorem test_sysReset : answers (step { fed [0x10] with resetSeen := false, phase := .reserved5, slot := 3 })
    (fun t => t.slot = 0 && t.phase = .idle && t.outLatch && t.resetSeen) = true := by decide +kernel
/-- Section 2.7: `mode_btn_n = 0`. -/
theorem test_modeSample : answers (step (fed [0x02])) (fun t => t.modeQ = .voltage) = true := by decide +kernel
/-- Section 2.6, line 7: a held button fires nothing and is sampled. -/
theorem test_rstEdge : answers (step { fed [0x01] with rstPrev := false, timeValue := 1234 })
    (fun t => !t.rstPrev && t.timeValue = 1234) = true := by decide +kernel
/-- Section 2.6, line 6: reset wins over the tick. -/
theorem test_tbReset : answers (step { fed [0x05] with timeValue := 1234 })
    (fun t => t.timeValue = 0 && !t.rstPrev) = true := by decide +kernel
/-- Section 2.6, line 4 (E2). -/
theorem test_tbTick_wraps : answers (step { fed [0x07] with timeValue := 5999 }) (fun t => t.timeValue = 0) = true := by decide +kernel
/-- Section 2.6, line 3. -/
theorem test_tbTick : answers (step { fed [0x07] with timeValue := 59 }) (fun t => t.timeValue = 60) = true := by decide +kernel
/-- Section 2.4, line 8: busy, a request pending, a tick: they merge. -/
theorem test_refreshReq_merges : answers (step { clkhi [0x0B] with pending := true }) (fun t => t.pending) = true := by decide +kernel
/-- Section 2.4, line 4: the set wins in a service cycle. -/
theorem test_refreshReq_in_service : answers (step (serving [0x0B])) (fun t => t.pending && t.phase = .setup) = true := by
  decide +kernel
/-- Section 2.4, service frames, line 2: tv 125, slot 1. -/
theorem test_muxService_clock : answers (step { serving [0x03] with timeValue := 125, slot := 1 })
    (fun t => t.frame = 0x24FD && t.slot = 2 && !t.pending) = true := by decide +kernel
/-- Section 2.4, service frames, line 8: mv 12000 clamps; the button of the service cycle itself does not matter. -/
theorem test_muxService_voltage : answers (step { serving [stimWord 12000 0x03] with modeQ := .voltage })
    (fun t => t.frame = 0x10FE && t.modeQ = .clock) = true := by decide +kernel
/-- Section 2.3, last check: after the transfer the line levels hold. -/
theorem test_serIdle : answers (step { fed [0x03] with outData := true, bitcnt := 15 })
    (fun t => t.outData && t.bitcnt = 15 && t.phase = .idle) = true := by decide +kernel
/-- Section 2.3, cycle t+17: bit 8 of 0xC0FE is driven. -/
theorem test_serSetup : answers (step { clkhi [0x03] with phase := .setup, bitcnt := 8, outClk := true })
    (fun t => t.outData && !t.outClk && t.phase = .clkhi) = true := by decide +kernel
/-- 41_serializer.md R114's example: bitcnt 3; and the receiver takes the data line. -/
theorem test_serClkhi : answers (step { clkhi [0x03] with bitcnt := 3, outData := true, chain := 0x8006 })
    (fun t => t.outClk && t.bitcnt = 4 && t.phase = .setup && t.chain = 0x000D) = true := by decide +kernel
/-- Section 2.3, cycle t+32. -/
theorem test_serClkhi_last : answers (step { clkhi [0x03] with bitcnt := 15 })
    (fun t => t.bitcnt = 15 && t.phase = .latlo) = true := by decide +kernel
/-- Section 2.3, cycle t+33. -/
theorem test_serLatlo : answers (step { clkhi [0x03] with phase := .latlo, bitcnt := 15, outClk := true })
    (fun t => !t.outClk && !t.outLatch && t.phase = .lathi) = true := by decide +kernel
/-- Section 2.3, cycle t+34. -/
theorem test_serLathi : answers (step (lathi [0x03])) (fun t => t.outLatch && t.phase = .idle && t.outReg = 0xC0FE) = true := by
  decide +kernel
/-- Section 2.8. -/
theorem test_reservedPhase5 : faultOf (step { fed [0x03] with phase := .reserved5 }) = some .unreachableState := by decide +kernel
theorem test_reservedPhase6 : faultOf (step { fed [0x0F] with phase := .reserved6 }) = some .unreachableState := by decide +kernel
theorem test_reservedPhase7 : faultOf (step { fed [0x00] with phase := .reserved7 }) = some .unreachableState := by decide +kernel
theorem test_time_6000 : faultOf (step { fed [0x03] with timeValue := 6000 }) = some .unreachableState := by decide +kernel
theorem test_unreset : faultOf (step { fed [0x03] with resetSeen := false }) = some .unreset := by decide +kernel
/-- E6 and E7 (section 1). -/
theorem test_encode : answers (exec (.encode 0 false) State.reset) (fun t => t.result = .byte 0xC0) = true := by decide +kernel
/-- Section 2.1. -/
theorem test_encode_suppressed : answers (exec (.encode 8 true) State.reset) (fun t => t.result = .byte 0x00) = true := by
  decide +kernel
/-- Section 2.1: no fixed result, but the instruction runs. -/
theorem test_reservedEnc10 : answers (exec (.reservedEncD10111415 10 false) State.reset) (fun t => t.slot = 0) = true := by
  decide +kernel
theorem test_reservedEnc12 : answers (exec (.reservedEncD12131415 13 true) State.reset) (fun t => t.slot = 0) = true := by
  decide +kernel
/-- Section 2.2. -/
theorem test_select : answers (exec (.select 2) State.reset) (fun t => t.result = .byte 0xFB) = true := by decide +kernel
theorem test_select_refused : after (exec (.select 2) badTable) = none := by decide +kernel
/-- Section 2.5. -/
theorem test_clockDigits : answers (exec (.clockDigits 1 599) State.reset) (fun t => t.result = .digit 9 true) = true := by
  decide +kernel
theorem test_clockDigits_6000 : faultOf (exec (.clockDigits 0 6000) State.reset) = some .unreachableState := by decide +kernel
theorem test_voltDigits : answers (exec (.voltDigits 0 3300) State.reset) (fun t => t.result = .digit 3 true) = true := by
  decide +kernel
theorem test_voltDigits_tens : answers (exec (.voltDigits 2 1650) State.reset) (fun t => t.result = .digit 5 false) = true := by
  decide +kernel
theorem test_clampMv : answers (exec (.clampMv 10000) State.reset) (fun t => t.result = .millivolts 9999) = true := by decide +kernel
theorem test_clampMv_edge : answers (exec (.clampMv 9999) State.reset) (fun t => t.result = .millivolts 9999) = true := by
  decide +kernel
/-- 41_serializer.md R112's example. -/
theorem test_serStart : answers (exec (.serStart 0xC0 0xFE) State.reset)
    (fun t => t.frame = 0xC0FE && t.phase = .setup && t.bitcnt = 0) = true := by decide +kernel

/-! ### Witnesses: the hypotheses of each obligation, met together -/

theorem witness_FiredByFields :
    (0x010 : CondVector).getLsbD 4 = true ∧ (0x000 : CondVector).getLsbD 4 = false ∧
      (0x040 : CondVector).extractLsb' 7 3 = 0 ∧ (0x080 : CondVector).extractLsb' 7 3 = 1 ∧
      (0x100 : CondVector).extractLsb' 7 3 = 2 ∧ (0x180 : CondVector).extractLsb' 7 3 = 3 ∧
      (0x200 : CondVector).extractLsb' 7 3 = 4 ∧ (0x280 : CondVector).extractLsb' 7 3 = 5 ∧
      (0x300 : CondVector).extractLsb' 7 3 = 6 ∧ (0x380 : CondVector).extractLsb' 7 3 = 7 := by decide +kernel

theorem witness_DecodeEncodeAgree :
    (Instr.encode 9 true).wellFormed = true ∧ encode (.encode 9 true) = .call (.enc 0x19) ∧
      (Instr.serLathi).wellFormed = true ∧ 14 ≤ (14 : BitVec 4).toNat := by decide +kernel

theorem witness_WriteSetsAreDisjoint :
    (Instr.refreshReq ∈ fired 0x048 ∧ Instr.muxService ∈ fired 0x048 ∧ Instr.refreshReq ≠ Instr.muxService ∧
        Register.pending ∈ Ops.writes .refreshReq ∧ Register.pending ∈ Ops.writes .muxService) ∧
      ∃ t u, exec .refreshReq (serving []) = .next t ∧ exec .muxService (serving []) = .next u :=
  ⟨by decide +kernel, _, _, rfl, (exists_next _ (by decide +kernel)).choose_spec⟩

/-- Running states at the edges of the bounds: time 5999, and each end of bitcnt. -/
theorem witness_running :
    Running { State.reset with timeValue := 5999, phase := .lathi } ∧ TableAccepted State.reset.cfg ∧
      Running (clkhi []) ∧ (clkhi []).bitcnt ≠ 15 ∧ Running (lathi []) ∧ (lathi []).bitcnt = 15 := by decide +kernel

theorem witness_TimebaseOperationsComplete : Running { State.reset with timeValue := 5999 } := by decide +kernel
theorem witness_RefreshRequestCompletes : Running (serving []) := by decide +kernel
theorem witness_MuxServiceCompletes : Running (serving []) ∧ TableAccepted (serving []).cfg := by decide +kernel
theorem witness_SerializerOperationsComplete :
    Running (clkhi []) ∧ (clkhi []).bitcnt ≠ 15 ∧ Running (lathi []) ∧ (lathi []).bitcnt = 15 := by decide +kernel
theorem witness_ReservedPhasesStop : Instr.reservedPhase7 ∈ [Instr.reservedPhase5, .reservedPhase6, .reservedPhase7] := by
  decide +kernel
theorem witness_EncodeCompletes : (9 : BitVec 4).toNat ≤ 9 := by decide +kernel
theorem witness_SuppressionActsOnBitSeven : (9 : BitVec 4).toNat ≤ 9 ∧
    (∃ t b, exec (.encode 9 false) State.reset = .next t ∧ t.result = .byte b) ∧
    (∃ u c, exec (.encode 9 true) State.reset = .next u ∧ u.result = .byte c) :=
  ⟨by decide +kernel, ⟨_, _, rfl, rfl⟩, ⟨_, _, rfl, rfl⟩⟩
theorem witness_ReservedEncAnswersFreeValue : 9 < (10 : BitVec 4).toNat := by decide +kernel
theorem witness_SelectCompletesOrRefuses : TableAccepted State.reset.cfg ∧ ¬ TableAccepted badTable.cfg := by decide +kernel
theorem witness_SelectEnablesExactlyOneDigit : (0 : BitVec 2) ≠ 3 ∧
    answers (exec (.select 0) State.reset) (fun t => t.result = .byte 0xFE) = true ∧
    answers (exec (.select 3) State.reset) (fun t => t.result = .byte 0xF7) = true := by decide +kernel
theorem witness_ClockDigitsCompletesOrStops : (5999 : BitVec 13).toNat ≤ 5999 ∧ 5999 < (6000 : BitVec 13).toNat ∧
    (0 : BitVec 2).toNat = 0 ∧ (1 : BitVec 2).toNat = 1 ∧ (2 : BitVec 2).toNat = 2 ∧ (3 : BitVec 2).toNat = 3 := by decide +kernel
theorem witness_VoltDigitsCompletes : (9999 : BitVec 14).toNat ≤ 9999 ∧ 9999 < (10000 : BitVec 14).toNat := by decide +kernel
theorem witness_DigitsRecombine :
    (answers (exec (.clockDigits 0 125) State.reset) (fun t => t.result = .digit 0 false) &&
      answers (exec (.clockDigits 1 125) State.reset) (fun t => t.result = .digit 2 true) &&
      answers (exec (.clockDigits 2 125) State.reset) (fun t => t.result = .digit 0 false) &&
      answers (exec (.clockDigits 3 125) State.reset) (fun t => t.result = .digit 5 false)) = true ∧
    (9999 : BitVec 14).toNat ≤ 9999 ∧
    (answers (exec (.voltDigits 0 9999) State.reset) (fun t => t.result = .digit 9 true) &&
      answers (exec (.voltDigits 1 9999) State.reset) (fun t => t.result = .digit 9 false) &&
      answers (exec (.voltDigits 2 9999) State.reset) (fun t => t.result = .digit 9 false) &&
      answers (exec (.voltDigits 3 9999) State.reset) (fun t => t.result = .digit 9 false)) = true := by decide +kernel

/-- Each register is changed by an instruction other than SYS_RESET. -/
theorem witness_RegistersHaveTheirWriters :
    (answers (exec .tbTick State.reset) (fun t => t.timeValue ≠ 0) &&
      answers (exec .rstEdge { State.reset with rstPrev := false }) (fun t => t.rstPrev) &&
      answers (exec .modeSample { State.reset with modeQ := .voltage }) (fun t => t.modeQ ≠ .voltage) &&
      answers (exec .muxService (serving [])) (fun t => t.slot ≠ 0 && !t.pending && t.phase ≠ .idle && t.frame ≠ 0) &&
      answers (exec .serClkhi (clkhi [])) (fun t => t.bitcnt ≠ 4 && t.outClk) &&
      answers (exec .serSetup { clkhi [] with bitcnt := 0 }) (fun t => t.outData) &&
      answers (exec .serLathi (lathi [])) (fun t => t.outLatch)) = true := by decide +kernel

theorem witness_InstructionsHoldTheRest :
    (∃ t, exec (.select 1) State.reset = .next t) ∧ encode (.select 1) = .call (.sel 1) ∧
      (∃ t, exec .tbTick State.reset = .next t) ∧ ∀ w : CallWord, encode .tbTick ≠ .call w :=
  ⟨exists_next _ (by decide +kernel), rfl, ⟨_, rfl⟩, fun _ h => by cases h⟩

theorem witness_EncodeAndSelectArePure : State.reset.cfg = (clkhi []).cfg ∧
    (∃ t, exec (.encode 3 true) State.reset = .next t) ∧ (∃ t, exec (.encode 3 true) (clkhi []) = .next t) ∧
    (∃ t, exec (.select 3) State.reset = .next t) ∧ (∃ t, exec (.select 3) (clkhi []) = .next t) :=
  ⟨rfl, ⟨_, rfl⟩, ⟨_, rfl⟩, exists_next _ (by decide +kernel), exists_next _ (by decide +kernel)⟩

theorem witness_StepRunsDecodedOperations :
    ({ State.reset with stimulus := [.call (.mv 0)] } : State).stimulus = .call (.mv 0) :: [] ∧
      (fed [0x03]).stimulus = .cycle 0x03 :: [] ∧ State.reset.stimulus = [] := by decide +kernel

theorem witness_CycleLandsEveryWrite : nextIsCycle (serving [0x0F]) = true ∧ (∃ t, step (serving [0x0F]) = .next t) ∧
    Instr.muxService ∈ fired (Ops.conditionVector (Cycle.sampled (serving [0x0F]))) ∧
    Register.outClk ∉ Ops.writes .muxService :=
  ⟨by decide +kernel, exists_next _ (by decide +kernel), by decide +kernel, by decide +kernel⟩

theorem witness_FetchWordIsRunNext : 0 < 8 ∧ decodeTableWord 8 0x10 = some .sysReset ∧
    decodeTableWord 8 0x0A = some (.reservedEncD10111415 10 false) ∧ 0 < 16 ∧
    decodeTableWord 16 0x380 = some .reservedPhase7 := by decide +kernel

theorem witness_CycleIsTheSpecStep : nextIsCycle State.reset = true ∧ nextIsCycle (fed [0x0F]) = true := by decide +kernel

theorem witness_SysRstOverridesEverything :
    nextIsCycle { fed [0x1F] with phase := .reserved6, resetSeen := false } = true ∧
      (Cycle.sampled { fed [0x1F] with phase := .reserved6, resetSeen := false }).inp.sysRst = true := by decide +kernel

theorem witness_UnreachableStateFaults :
    nextIsCycle { fed [0x03] with timeValue := 6000 } = true ∧
      (Cycle.sampled { fed [0x03] with timeValue := 6000 }).inp.sysRst = false ∧
      ({ fed [0x03] with timeValue := 6000 } : State).resetSeen = true ∧
      5999 < ({ fed [0x03] with timeValue := 6000 } : State).timeValue.toNat ∧
      (Cycle.sampled { fed [0x03] with phase := .reserved5 }).inp.sysRst = false ∧
      ({ fed [0x03] with phase := .reserved5 } : State).phase ∈ [Phase.reserved5, .reserved6, .reserved7] := by decide +kernel

theorem witness_UnresetFaults :
    nextIsCycle { fed [0x03] with resetSeen := false } = true ∧
      (Cycle.sampled { fed [0x03] with resetSeen := false }).inp.sysRst = false ∧
      ({ fed [0x03] with resetSeen := false } : State).resetSeen = false := by decide +kernel

theorem witness_FaultsExactlyWhen : nextIsCycle { fed [0x03] with phase := .reserved7 } = true ∧
    (Cycle.sampled { fed [0x03] with phase := .reserved7 }).inp.sysRst = false ∧
    ¬ Legal { fed [0x03] with phase := .reserved7 } := by decide +kernel

theorem witness_LegalStateAlwaysSteps : Running State.reset ∧ TableAccepted State.reset.cfg ∧
    nextIsCycle State.reset = true ∧ Running (serving [0x0F]) ∧ nextIsCycle (serving [0x0F]) = true := by decide +kernel

/-- Each branch of the next TimeValue: reset, edge, the wrap, the count, the hold. -/
theorem witness_TimeValueNext :
    ([fed [0x1F], fed [0x05], { fed [0x07] with timeValue := 5999 }, { fed [0x07] with timeValue := 5998 },
      fed [0x03]].all fun s => nextIsCycle s && (after (step s)).isSome) = true := by decide +kernel

theorem witness_HeldSecondTickCountsEveryCycle :
    Running { fed [0x07, 0x07] with timeValue := 5999 } ∧ TableAccepted (fed []).cfg ∧
      feeds { fed [0x07, 0x07] with timeValue := 5999 } [0x07, 0x07] [] ∧ noReset [0x07, 0x07] ∧
      ∀ w ∈ ([0x07, 0x07] : List StimWord), w.getLsbD 2 = true ∧ w.getLsbD 1 = true :=
  ⟨by decide +kernel, by decide +kernel, rfl, noReset_of rfl, fun w hw => by simp at hw; subst hw; decide⟩

theorem witness_ResetEdgeBeatsTick : Running { fed [0x05] with timeValue := 1234 } ∧ TableAccepted (fed []).cfg ∧
    nextIsCycle { fed [0x05] with timeValue := 1234 } = true ∧ ({ fed [0x05] with timeValue := 1234 } : State).rstPrev = true ∧
    (Cycle.sampled { fed [0x05] with timeValue := 1234 }).inp.rstBtnN = false ∧
    (Cycle.sampled { fed [0x05] with timeValue := 1234 }).inp.secTick = true := by decide +kernel

theorem witness_ButtonsAreSampledEveryCycle : nextIsCycle (fed [0x00]) = true ∧
    (Cycle.sampled (fed [0x00])).inp.sysRst = false ∧ ∃ t, step (fed [0x00]) = .next t :=
  ⟨by decide +kernel, by decide +kernel, exists_next _ (by decide +kernel)⟩

/-- REFV, then a service with the button released (section 2.7). -/
theorem witness_ServiceUsesPreviousButtonLevel : nextIsCycle (fed [0x0A, 0x03]) = true ∧
    (Cycle.sampled (fed [0x0A, 0x03])).inp.sysRst = false ∧
    ∃ t, step (fed [0x0A, 0x03]) = .next t ∧
      (nextIsCycle t && serviceCycle (Cycle.sampled t) && (after (step t)).isSome) = true :=
  ⟨by decide +kernel, by decide +kernel, exists_answer (by decide +kernel)⟩

theorem witness_HeldPressFiresOnce : Running (fed [0x01, 0x05]) ∧ TableAccepted (fed []).cfg ∧
    (fed [0x01, 0x05]).rstPrev = true ∧ feeds (fed [0x01, 0x05]) [0x01, 0x05] [] ∧ noReset [0x01, 0x05] ∧
    (∀ w ∈ ([0x01, 0x05] : List StimWord), w.getLsbD 1 = false) ∧ 0 < ([0x01, 0x05] : List StimWord).length :=
  ⟨by decide +kernel, by decide +kernel, rfl, rfl, noReset_of rfl,
    fun w hw => by simp at hw; rcases hw with rfl | rfl <;> decide, by decide⟩

/-- A service cycle with a tick, and a busy cycle. -/
theorem witness_PendingNext :
    ([serving [0x0B], clkhi [0x0B], fed [0x03]].all fun s =>
      nextIsCycle s && !(Cycle.sampled s).inp.sysRst && (after (step s)).isSome) = true := by decide +kernel

theorem witness_SlotAdvancesOncePerService :
    ([{ serving [0x03] with slot := 3 }, clkhi [0x03]].all fun s =>
      nextIsCycle s && !(Cycle.sampled s).inp.sysRst && (after (step s)).isSome) = true ∧
      (serving [0x03]).pending = true ∧ (serving [0x03]).phase = .idle ∧
      ¬ ((clkhi [0x03]).pending = true ∧ (clkhi [0x03]).phase = .idle) := by decide +kernel

/-- Two service cycles that differ in the other inputs and in the receiver, in each mode. -/
theorem witness_FrameDependsOnServiceCycleOnly :
    ([(serving [0x07], { serving [0x00] with chain := 0xFFFF }),
      ({ serving [stimWord 5 0x07] with modeQ := .voltage }, { serving [stimWord 5 0x08] with modeQ := .voltage })].all
      fun (a, b) => nextIsCycle a && nextIsCycle b && serviceCycle (Cycle.sampled a) && serviceCycle (Cycle.sampled b) &&
        a.timeValue = b.timeValue && a.modeQ = b.modeQ && a.slot = b.slot && a.cfg = b.cfg &&
        (Cycle.sampled a).inp.mvIn = (Cycle.sampled b).inp.mvIn && (after (step a)).isSome && (after (step b)).isSome) =
      true := by decide +kernel

theorem witness_ServicesAtMostTicks : (∃ t, Host.Core.run core 1 (serving [0x0B]) = .next t) ∧
    countCycles (fun c => c.inp.sysRst) 1 (serving [0x0B]) = 0 :=
  ⟨exists_next _ (by decide +kernel), by decide +kernel⟩

/-- The hypotheses a transfer runs under, at both ends of the range of `k`. -/
theorem witness_ServicesAreThirtyFiveApart : Running (serving (List.replicate 35 0x03)) ∧ TableAccepted (serving []).cfg ∧
    (serving (List.replicate 35 0x03)).pending = true ∧ (serving (List.replicate 35 0x03)).phase = .idle ∧
    feeds (serving (List.replicate 35 0x03)) (List.replicate 35 0x03) [] ∧ noReset (List.replicate 35 0x03) ∧
    0 < (List.replicate 35 (0x03 : StimWord)).length ∧ 34 < (List.replicate 35 (0x03 : StimWord)).length :=
  ⟨by decide +kernel, by decide +kernel, rfl, rfl, by simp [feeds, serving, fed], noReset_of rfl, by decide, by decide⟩

/-- One period of exactly 35 cycles. -/
theorem witness_SpacedTicksAreNeverLost :
    Running (fed (0x0B :: List.replicate 34 0x03)) ∧ TableAccepted (fed []).cfg ∧
      (fed (0x0B :: List.replicate 34 0x03)).pending = false ∧ (fed (0x0B :: List.replicate 34 0x03)).phase = .idle ∧
      feeds (fed (0x0B :: List.replicate 34 0x03))
        ([((0x0B : StimWord), List.replicate 34 (0x03 : StimWord))].flatMap fun p => p.1 :: p.2) [] ∧
      noReset ([((0x0B : StimWord), List.replicate 34 (0x03 : StimWord))].flatMap fun p => p.1 :: p.2) ∧
      ∀ p ∈ [((0x0B : StimWord), List.replicate 34 (0x03 : StimWord))],
        p.1.getLsbD 3 = true ∧ 34 ≤ p.2.length ∧ ∀ w ∈ p.2, w.getLsbD 3 = false :=
  ⟨by decide +kernel, by decide +kernel, rfl, rfl, by simp [feeds, fed], noReset_of rfl, fun p hp => by
    rw [List.mem_singleton] at hp
    subst hp
    exact ⟨rfl, by decide, fun w hw => by rw [List.eq_of_mem_replicate hw]; rfl⟩⟩

/-- A rise of sr_clk, a rise of sr_latch, neither, and a call. -/
theorem witness_ReceiverFollowsTheLines :
    (answers (step (clkhi [0x03])) (fun t => t.outClk) && !(clkhi [0x03]).outClk &&
      answers (step (lathi [0x03])) (fun t => t.outLatch) && !(lathi [0x03]).outLatch &&
      answers (step (fed [0x03])) (fun t => !t.outClk && t.outLatch) &&
      (after (step { State.reset with stimulus := [.call (.mv 0)] })).isSome &&
      !nextIsCycle { State.reset with stimulus := [.call (.mv 0)] }) = true := by decide +kernel

theorem witness_TransferTimeline : Running (serving (List.replicate 35 0x03)) ∧ TableAccepted (serving []).cfg ∧
    (serving (List.replicate 35 0x03)).pending = true ∧ (serving (List.replicate 35 0x03)).phase = .idle ∧
    feeds (serving (List.replicate 35 0x03)) (List.replicate 35 0x03) [] ∧ noReset (List.replicate 35 0x03) ∧
    (List.replicate 35 (0x03 : StimWord)).length = 35 ∧ 15 < 16 :=
  ⟨by decide +kernel, by decide +kernel, rfl, rfl, by simp [feeds, serving, fed], noReset_of rfl, by decide, by decide⟩

/-- The same with every input but sys_rst changing during the transfer. -/
theorem witness_TransferDeliversTheFrame : Running (serving (List.replicate 35 0x7FFEF)) ∧ TableAccepted (serving []).cfg ∧
    (serving (List.replicate 35 0x7FFEF)).pending = true ∧ (serving (List.replicate 35 0x7FFEF)).phase = .idle ∧
    feeds (serving (List.replicate 35 0x7FFEF)) (List.replicate 35 0x7FFEF) [] ∧ noReset (List.replicate 35 0x7FFEF) ∧
    (List.replicate 35 (0x7FFEF : StimWord)).length = 35 :=
  ⟨by decide +kernel, by decide +kernel, rfl, rfl, by simp [feeds, serving, fed], noReset_of rfl, by decide⟩

theorem witness_FramePseudoShowsOneDigit : Running (fed (assembleFrom 1650 [.frame])) ∧ TableAccepted (fed []).cfg ∧
    (fed (assembleFrom 1650 [.frame])).pending = false ∧ (fed (assembleFrom 1650 [.frame])).phase = .idle ∧
    feeds (fed (assembleFrom 1650 [.frame])) (assembleFrom 1650 [.frame]) [] :=
  ⟨by decide +kernel, by decide +kernel, rfl, rfl, by simp [feeds, fed]⟩

theorem witness_EveryStepKeepsTheInvariant : Inv (clkhi [0x07]) ∧ (∃ t, step (clkhi [0x07]) = .next t) ∧
    Inv (lathi [0x0B]) ∧ ∃ t, step (lathi [0x0B]) = .next t :=
  ⟨by decide +kernel, exists_next _ (by decide +kernel), by decide +kernel, exists_next _ (by decide +kernel)⟩

theorem witness_EveryStepKeepsLegality : Running (fed [0x07]) ∧ (∃ t, step (fed [0x07]) = .next t) ∧
    nextIsCycle { fed [0x10] with phase := .reserved5 } = true ∧
    (Cycle.sampled { fed [0x10] with phase := .reserved5 }).inp.sysRst = true ∧
    ∃ t, step { fed [0x10] with phase := .reserved5 } = .next t :=
  ⟨by decide +kernel, exists_next _ (by decide +kernel), by decide +kernel, by decide +kernel, exists_next _ (by decide +kernel)⟩

theorem witness_OutputsChangeToWholeFrames : Inv (lathi [0x03]) ∧ TableAccepted (lathi [0x03]).cfg ∧
    ∃ t, step (lathi [0x03]) = .next t ∧ decide (t.outReg ≠ (lathi [0x03]).outReg) = true :=
  ⟨by decide +kernel, by decide +kernel, exists_answer (by decide +kernel)⟩

/-- A reset in SETUP, CLKHI, LATLO and LATHI of one transfer (70_reset_and_hazards.md R229). -/
theorem witness_ResetMidTransfer :
    ([{ clkhi [0x13] with phase := .setup, outClk := true }, clkhi [0x13],
      { lathi [0x13] with phase := .latlo, outClk := true, outLatch := true }, lathi [0x13]].all fun s =>
      decide (Inv s) && nextIsCycle s && (Cycle.sampled s).inp.sysRst && (after (step s)).isSome) = true := by decide +kernel

theorem witness_ParametersNeverChange : ∃ t, Host.Core.run core 1 (fed [0x13]) = .next t := exists_next _ (by decide +kernel)

end Sys2Proof.Tests
end

/-! ### The cycle with sys_rst = 1 (10_state.md R21, 70_reset_and_hazards.md R220) -/

namespace Sys2Proof.Machine

open Sys2Proof.Safety

theorem fired_conditionVector_reset {s : State} (h : s.inp.sysRst = true) :
    fired (Ops.conditionVector s) = [.sysReset] := by
  rw [fired_conditionVector, if_pos h]

/-- SYS_RESET, unlike the other operations of the block, does not start with `Ops.operate`. -/
theorem exec_sysReset (s : State) : exec .sysReset s = .next (Ops.resetBlock s) := rfl

/-- SYS_RESET writes every register, so gathering its writes leaves nothing of the cycle's registers. -/
theorem commit_sysReset_resetBlock (s : State) : Ops.commit .sysReset (Ops.resetBlock s) s = Ops.resetBlock s := rfl

theorem atReset_resetBlock (s : State) : AtReset (Ops.resetBlock s) := by simp [AtReset]

/-- The receiver is outside the block: it changes no register. -/
theorem atReset_receive {s t : State} (h : AtReset t) : AtReset (Ops.receive s t) := h

/-- The cycle with sys_rst = 1 in full: every register reset, and the receiver's reaction to the reset lines. -/
theorem clock_reset {s : State} (h : s.inp.sysRst = true) :
    Cycle.clock s = .next (Ops.receive s (Ops.resetBlock s)) := by
  have hrun : Cycle.runFired s (fired (Ops.conditionVector s)) s = .next (Ops.resetBlock s) := by
    rw [fired_conditionVector_reset h, runFired_next (exec_sysReset s), commit_sysReset_resetBlock, Cycle.runFired]
  rw [Cycle.clock, hrun]

/-- Settles O29: SYS_RESET is the only operation of the cycle and asks nothing of the state it runs on. -/
theorem sysRstOverridesEverything : Obligations.SysRstOverridesEverything := by
  intro s hcycle hrst
  have hstep : step s = .next (Ops.receive (Cycle.sampled s) (Ops.resetBlock (Cycle.sampled s))) :=
    (step_cycle hcycle).trans (clock_reset hrst)
  exact ⟨_, hstep, atReset_receive (atReset_resetBlock _), fired_conditionVector_reset hrst⟩

end Sys2Proof.Machine

/-! ### The fired operations of any condition vector (30_encoding.md R74, R76, R78) -/

namespace Sys2Proof.Machine

/-- A condition vector is its fields put together, so a law about `Ops.conditionVector`'s fields is one about every word. -/
theorem condVector_eq_fields (cv : CondVector) :
    cv = Ops.phaseCode (Ops.phaseOf (cv.extractLsb' 7 3)) ++ bit (cv.getLsbD 6) ++ bit (cv.getLsbD 5) ++
      bit (cv.getLsbD 4) ++ bit (cv.getLsbD 3) ++ bit (cv.getLsbD 2) ++ bit (cv.getLsbD 1) ++ bit (cv.getLsbD 0) := by
  rw [phaseCode_phaseOf]
  refine BitVec.eq_of_getLsbD_eq fun i hi => ?_
  simp only [BitVec.getLsbD_append, BitVec.getLsbD_ofBool, BitVec.getLsbD_extractLsb']
  interval_cases i <;> simp

/-- What a condition vector fires, by its bits. -/
theorem fired_eq_of_bits (cv : CondVector) :
    fired cv =
      if cv.getLsbD 4 then [.sysReset]
      else [.modeSample, .rstEdge] ++ timeOps (cv.getLsbD 5) (cv.getLsbD 1) (cv.getLsbD 2) ++ reqOps (cv.getLsbD 3) ++
        [serOp (Ops.phaseOf (cv.extractLsb' 7 3)) (cv.getLsbD 6)] := by
  conv_lhs => rw [condVector_eq_fields cv]
  exact fired_of_fields ..

/-- Settles O2: the fields of the word name the operations, and the SER operation is `serOp` of the phase and pending bits. -/
theorem firedByFields : Obligations.FiredByFields := by
  intro cv
  refine ⟨fun hrst => by rw [fired_eq_of_bits, if_pos hrst], fun hrst =>
    ⟨serOp (Ops.phaseOf (cv.extractLsb' 7 3)) (cv.getLsbD 6), ?fired, ?_, ?_, ?_, ?_, ?_, ?_, ?_, ?_⟩⟩
  case fired =>
    rw [fired_eq_of_bits, hrst]
    simp [timeOps, reqOps]
  all_goals
    intro hphase
    rw [hphase]
    rfl

/-- The group that writes a register in a cycle without reset: the single-writer table of 30_encoding.md R74. Of `pending`
it is REQ, and MUX_SERVICE is the one operation of another group that writes it (R76). -/
def ownerGroup : Register → Group
  | .modeQ => .mode
  | .rstPrev => .edge
  | .timeValue => .time
  | .pending => .req
  | .slot | .phase | .bitcnt | .frame | .outClk | .outData | .outLatch => .ser
  | .resetSeen => .reset

/-- A row of the operation map outside RESET writes only registers its group owns, and `pending`. -/
theorem ownerGroup_of_mem_writes : ∀ r ∈ cvRows, r.group ≠ .reset → ∀ f ∈ Ops.writes r.op, f ≠ .pending →
    ownerGroup f = r.group := by decide

/-- The rows outside RESET that write `pending` (30_encoding.md R76). -/
theorem op_of_pending_mem_writes : ∀ r ∈ cvRows, r.group ≠ .reset → .pending ∈ Ops.writes r.op →
    r.op = .refreshReq ∨ r.op = .muxService := by decide

/-- What a group fires is the operation of one of its rows. -/
theorem firedIn_eq_some {g : Group} {cv : CondVector} {i : Instr} (h : firedIn g cv = some i) :
    ∃ r ∈ cvRows, r.group = g ∧ r.op = i := by
  obtain ⟨r, hfind, hop⟩ := Option.map_eq_some_iff.1 h
  have hmatch : (decide (r.group = g) && r.hits cv) = true :=
    List.find?_some (p := fun r : CvRow => decide (r.group = g) && r.hits cv) hfind
  exact ⟨r, List.mem_of_find?_eq_some hfind, of_decide_eq_true (Bool.and_eq_true_iff.1 hmatch).1, hop⟩

/-- A fired operation is the only one, or what a group other than RESET fires. -/
theorem mem_fired {cv : CondVector} {i : Instr} (h : i ∈ fired cv) :
    fired cv = [i] ∨ ∃ g, g ≠ .reset ∧ firedIn g cv = some i := by
  unfold fired at h ⊢
  split at h
  · exact .inl (by rw [List.mem_singleton.1 h])
  · obtain ⟨g, hg, hfired⟩ := List.mem_filterMap.1 h
    exact .inr ⟨g, by rintro rfl; revert hg; decide, hfired⟩

/-- One of several fired operations that writes a register other than `pending` is the one its owner group fires. -/
theorem firedIn_ownerGroup {g : Group} {cv : CondVector} {i : Instr} {f : Register} (h : firedIn g cv = some i)
    (hg : g ≠ .reset) (hf : f ∈ Ops.writes i) (hp : f ≠ .pending) : firedIn (ownerGroup f) cv = some i := by
  obtain ⟨r, hr, rfl, rfl⟩ := firedIn_eq_some h
  rwa [ownerGroup_of_mem_writes r hr hg f hf hp]

/-- An operation a group other than RESET fires writes `pending` only if it is REFRESH_REQ or MUX_SERVICE. -/
theorem firedIn_pending {g : Group} {cv : CondVector} {i : Instr} (h : firedIn g cv = some i) (hg : g ≠ .reset)
    (hf : .pending ∈ Ops.writes i) : i = .refreshReq ∨ i = .muxService := by
  obtain ⟨r, hr, rfl, rfl⟩ := firedIn_eq_some h
  exact op_of_pending_mem_writes r hr hg hf

/-- Two fired operations that write one register are REFRESH_REQ and MUX_SERVICE, and the register is `pending`: any other
register has one owner group, which fires one operation. -/
theorem fired_writers {cv : CondVector} {i j : Instr} {f : Register} (hi : i ∈ fired cv) (hj : j ∈ fired cv) (hij : i ≠ j)
    (hfi : f ∈ Ops.writes i) (hfj : f ∈ Ops.writes j) :
    f = .pending ∧ (i = .refreshReq ∧ j = .muxService ∨ i = .muxService ∧ j = .refreshReq) := by
  obtain halone | ⟨g, hg, hgi⟩ := mem_fired hi
  · exact absurd (List.mem_singleton.1 (halone ▸ hj)).symm hij
  obtain halone | ⟨g', hg', hgj⟩ := mem_fired hj
  · exact absurd (List.mem_singleton.1 (halone ▸ hi)) hij
  by_cases hp : f = .pending
  · subst hp
    obtain rfl | rfl := firedIn_pending hgi hg hfi <;> obtain rfl | rfl := firedIn_pending hgj hg' hfj
    · exact absurd rfl hij
    · exact ⟨rfl, .inl ⟨rfl, rfl⟩⟩
    · exact ⟨rfl, .inr ⟨rfl, rfl⟩⟩
    · exact absurd rfl hij
  · have hsame : some i = some j :=
      (firedIn_ownerGroup hgi hg hfi hp).symm.trans (firedIn_ownerGroup hgj hg' hfj hp)
    exact absurd (Option.some.inj hsame) hij

/-- REFRESH_REQ writes `pending` by its one expression (42_multiplexer.md R130). -/
theorem refreshReq_pending {s t : State} (h : exec .refreshReq s = .next t) : t.pending = Flags.nextPending s := by
  obtain ⟨-, hgo⟩ := operate_next (show execRefreshReq s = .next t from h)
  cases hgo
  rfl

/-- MUX_SERVICE, where the table is not refused, writes `pending` by its one expression (42_multiplexer.md R130). -/
theorem muxService_pending {s t : State} (h : exec .muxService s = .next t) : t.pending = Flags.nextPending s := by
  obtain ⟨-, hgo⟩ := operate_next (show execMuxService s = .next t from h)
  split at hgo
  · cases hgo
    rfl
  · cases hgo

/-- Settles O5: by the owner group of each register, and for `pending` by its one writing expression. -/
theorem writeSetsAreDisjoint : Obligations.WriteSetsAreDisjoint :=
  ⟨fun _ _ _ _ hi hj hij hfi hfj => fired_writers hi hj hij hfi hfj, fun _ _ _ ht hu =>
    ⟨(refreshReq_pending ht).trans (muxService_pending hu).symm, refreshReq_pending ht⟩⟩

end Sys2Proof.Machine

/-! ### The cycle with sys_rst = 0, and the slot and frame in it (30_encoding.md R74, 42_multiplexer.md R132, R133) -/

namespace Sys2Proof.Machine

open Sys2Proof.Safety

/-- What a cycle without reset fires before its SER operation. -/
def earlyOps (s : State) : List Instr :=
  [.modeSample, .rstEdge] ++ timeOps s.rstPrev s.inp.rstBtnN s.inp.secTick ++ reqOps s.inp.refreshTick

theorem fired_conditionVector_noReset {s : State} (h : s.inp.sysRst = false) :
    fired (Ops.conditionVector s) = earlyOps s ++ [serOp s.phase s.pending] := by
  rw [fired_conditionVector, if_neg (by simp [h]), earlyOps]

theorem mem_earlyOps {s : State} {i : Instr} (h : i ∈ earlyOps s) :
    i ∈ [Instr.modeSample, .rstEdge, .tbReset, .tbTick, .refreshReq] := by
  unfold earlyOps timeOps reqOps at h
  split_ifs at h <;> simp at h ⊢ <;> tauto

/-- The registers written by operations of the SER group alone are written by none of the others a cycle fires. -/
theorem slot_frame_notMem_writes_earlyOps {s : State} {i : Instr} (h : i ∈ earlyOps s) :
    .slot ∉ Ops.writes i ∧ .frame ∉ Ops.writes i :=
  (show ∀ j ∈ [Instr.modeSample, .rstEdge, .tbReset, .tbTick, .refreshReq],
    .slot ∉ Ops.writes j ∧ .frame ∉ Ops.writes j by decide) i (mem_earlyOps h)

theorem serOp_eq_muxService_iff (ph : Phase) (q : Bool) : serOp ph q = .muxService ↔ q = true ∧ ph = .idle := by
  cases ph <;> cases q <;> simp [serOp]

/-- MUX_SERVICE is the one SER operation of a cycle that writes the slot or the frame. -/
theorem slot_frame_notMem_writes_serOp {ph : Phase} {q : Bool} (h : serOp ph q ≠ .muxService) :
    .slot ∉ Ops.writes (serOp ph q) ∧ .frame ∉ Ops.writes (serOp ph q) := by
  cases ph
  case idle => cases q <;> simp_all [serOp, Ops.writes]
  all_goals simp [serOp, Ops.writes]

/-- An operation leaves the slot it does not write as the cycle's other operations made it. -/
theorem commit_slot_of_notMem {i : Instr} (h : .slot ∉ Ops.writes i) (t acc : State) :
    (Ops.commit i t acc).slot = acc.slot := by
  simp [Ops.commit, Ops.writesRegister, h]

/-- An operation leaves the frame it does not write as the cycle's other operations made it. -/
theorem commit_frame_of_notMem {i : Instr} (h : .frame ∉ Ops.writes i) (t acc : State) :
    (Ops.commit i t acc).frame = acc.frame := by
  simp [Ops.commit, Ops.writesRegister, h]

/-- The fired operations may be run in two parts. -/
theorem runFired_append_inv {s t : State} {js : List Instr} : ∀ {is : List Instr} {acc : State},
    Cycle.runFired s (is ++ js) acc = .next t →
      ∃ u, Cycle.runFired s is acc = .next u ∧ Cycle.runFired s js u = .next t
  | [], acc, h => ⟨acc, rfl, h⟩
  | i :: is, acc, h => by
    obtain ⟨v, hv⟩ := runFired_all _ _ _ h i (by simp)
    rw [List.cons_append, runFired_next hv] at h
    rw [runFired_next hv]
    exact runFired_append_inv h

/-- A part of the state that none of the operations puts into the next state is held while they run. -/
theorem runFired_keeps {α : Type} (get : State → α) {s t : State} : ∀ {is : List Instr} {acc : State},
    (∀ i ∈ is, ∀ u acc', get (Ops.commit i u acc') = get acc') → Cycle.runFired s is acc = .next t → get t = get acc
  | [], _, _, h => by cases h; rfl
  | i :: is, acc, hkeep, h => by
    obtain ⟨v, hv⟩ := runFired_all _ _ _ h i (by simp)
    rw [runFired_next hv] at h
    rw [runFired_keeps get (fun j hj => hkeep j (by simp [hj])) h, hkeep i (by simp)]

/-- What a cycle without reset that answers comes to: the other operations' writes, then the SER operation's, then the
receiver. -/
theorem clock_next {s t : State} (hrst : s.inp.sysRst = false) (h : Cycle.clock s = .next t) :
    ∃ u v, Cycle.runFired s (earlyOps s) s = .next u ∧ exec (serOp s.phase s.pending) s = .next v ∧
      t = Ops.receive s (Ops.commit (serOp s.phase s.pending) v u) := by
  rw [Cycle.clock, fired_conditionVector_noReset hrst] at h
  split at h
  case h_1 w hrun =>
    obtain ⟨u, hu, hser⟩ := runFired_append_inv hrun
    obtain ⟨v, hv⟩ := runFired_all _ _ _ hser _ (List.mem_singleton_self _)
    rw [runFired_next hv] at hser
    cases hser
    cases h
    exact ⟨u, v, hu, hv, rfl⟩
  all_goals cases h

/-- MUX_SERVICE in full, where it answers: the rule's frame, the advanced slot, a transfer started. -/
theorem muxService_next {s t : State} (h : exec .muxService s = .next t) :
    Running s ∧ TableAccepted s.cfg ∧
      t = { s with
        frame := serviceFrame s, bitcnt := 0, phase := .setup, slot := s.slot + 1, pending := Flags.nextPending s } := by
  obtain ⟨hrun, hgo⟩ := operate_next (show execMuxService s = .next t from h)
  split at hgo
  case h_1 sel hsel =>
    obtain ⟨htable, rfl⟩ := Operands.selectByte_eq_some hsel
    cases hgo
    rw [Operands.activeSegment_eq s hrun.2.1]
    exact ⟨hrun, htable, rfl⟩
  case h_2 => cases hgo

/-- R131: MUX_SERVICE fires in exactly the service cycles. -/
theorem muxService_mem_fired_iff {s : State} (hrst : s.inp.sysRst = false) :
    .muxService ∈ fired (Ops.conditionVector s) ↔ s.pending = true ∧ s.phase = .idle := by
  have hearly : .muxService ∉ earlyOps s := fun h => (slot_frame_notMem_writes_earlyOps h).1 (by decide)
  rw [fired_conditionVector_noReset hrst, List.mem_append, List.mem_singleton, ← serOp_eq_muxService_iff]
  exact ⟨fun h => (h.resolve_left hearly).symm, fun h => .inr h.symm⟩

/-- R132, R133: a service cycle shows the frame of the slot before the advance. -/
theorem clock_service {s t : State} (hrst : s.inp.sysRst = false) (hservice : s.pending = true ∧ s.phase = .idle)
    (h : Cycle.clock s = .next t) : t.slot = s.slot + 1 ∧ t.frame = serviceFrame s := by
  obtain ⟨u, v, -, hser, rfl⟩ := clock_next hrst h
  rw [(serOp_eq_muxService_iff _ _).2 hservice] at hser ⊢
  obtain ⟨-, -, rfl⟩ := muxService_next hser
  simp

/-- R133: there is no other transition of the slot, and the frame changes with it. -/
theorem clock_noService {s t : State} (hrst : s.inp.sysRst = false) (hservice : ¬ (s.pending = true ∧ s.phase = .idle))
    (h : Cycle.clock s = .next t) : t.slot = s.slot ∧ t.frame = s.frame := by
  obtain ⟨u, v, hearly, -, rfl⟩ := clock_next hrst h
  have hslot : u.slot = s.slot := runFired_keeps State.slot
    (fun _ hi => commit_slot_of_notMem (slot_frame_notMem_writes_earlyOps hi).1) hearly
  have hframe : u.frame = s.frame := runFired_keeps State.frame
    (fun _ hi => commit_frame_of_notMem (slot_frame_notMem_writes_earlyOps hi).2) hearly
  obtain ⟨hslotSer, hframeSer⟩ := slot_frame_notMem_writes_serOp (mt (serOp_eq_muxService_iff _ _).1 hservice)
  rw [receive_slot, receive_frame, commit_slot_of_notMem hslotSer, commit_frame_of_notMem hframeSer]
  exact ⟨hslot, hframe⟩

/-- Settles O42: MUX_SERVICE is the one operation of a cycle without reset that writes the slot and the frame. -/
theorem slotAdvancesOncePerService : Obligations.SlotAdvancesOncePerService := by
  intro s t hcycle hrst hstep
  rw [step_cycle hcycle] at hstep
  rw [← sampled_pending s, ← sampled_phase s, ← sampled_slot s, ← sampled_frame s]
  refine ⟨muxService_mem_fired_iff hrst, fun hservice => ?_, fun hservice => clock_noService hrst hservice hstep⟩
  obtain ⟨hslot, hframe⟩ := clock_service hrst hservice hstep
  exact ⟨by rw [hslot, BitVec.toNat_add]; rfl, hframe⟩

end Sys2Proof.Machine

/-! ### The cycle of a running state, with sys_rst = 0 and in general (43_timebase_mode.md R169) -/

namespace Sys2Proof.Machine

open Sys2Proof.Safety

section running

variable {s : State} (h : Running s)

include h

theorem exec_modeSample : exec .modeSample s = .next { s with modeQ := Flags.modeOf s.inp.modeBtnN } := by
  rw [exec, execModeSample, operate_running h]

theorem exec_rstEdge : exec .rstEdge s = .next { s with rstPrev := s.inp.rstBtnN } := by
  rw [exec, execRstEdge, operate_running h]

theorem exec_tbReset : exec .tbReset s = .next { s with timeValue := 0 } := by
  rw [exec, execTbReset, operate_running h]

theorem exec_tbTick : exec .tbTick s = .next { s with timeValue := Operands.tickTime s.timeValue } := by
  rw [exec, execTbTick, operate_running h]

theorem exec_refreshReq : exec .refreshReq s = .next { s with pending := Flags.nextPending s } := by
  rw [exec, execRefreshReq, operate_running h]

/-- The SER operation a cycle fires answers, whatever the phase, where the table is accepted. -/
theorem exec_serOp_answers (htable : TableAccepted s.cfg) : ∃ v, exec (serOp s.phase s.pending) s = .next v := by
  have ⟨_, _, h5, h6, h7⟩ := h
  cases hphase : s.phase with
  | idle =>
    cases s.pending with
    | false => simp [serOp, exec, execSerIdle, operate_running h]
    | true => simp [serOp, exec, execMuxService, operate_running h, Operands.selectByte_accepted htable]
  | setup => simp [serOp, exec, execSerSetup, operate_running h]
  | clkhi =>
    rw [serOp, exec, execSerClkhi, operate_running h]
    split <;> exact ⟨_, rfl⟩
  | latlo => simp [serOp, exec, execSerLatlo, operate_running h]
  | lathi => simp [serOp, exec, execSerLathi, operate_running h]
  | reserved5 => exact absurd hphase h5
  | reserved6 => exact absurd hphase h6
  | reserved7 => exact absurd hphase h7

end running

/-- The state of a cycle without reset after the operations it fires before its SER operation. -/
def afterEarlyOps (s : State) : State :=
  { s with
    modeQ := Flags.modeOf s.inp.modeBtnN
    rstPrev := s.inp.rstBtnN
    timeValue := BitVec.ofNat 13 (ruleTime s)
    pending := if s.inp.refreshTick then Flags.nextPending s else s.pending }

section early

variable {s : State} (h : Running s) (hrst : s.inp.sysRst = false)

include h hrst

/-- R165: the TIME operation of a cycle without reset, if one fires, leaves the time of the rule. -/
theorem runFired_timeOps (js : List Instr) {acc : State} (hacc : acc.timeValue = s.timeValue) :
    Cycle.runFired s (timeOps s.rstPrev s.inp.rstBtnN s.inp.secTick ++ js) acc =
      Cycle.runFired s js { acc with timeValue := BitVec.ofNat 13 (ruleTime s) } := by
  unfold timeOps ruleTime
  by_cases hedge : s.rstPrev = true ∧ s.inp.rstBtnN = false
  · simp [hrst, hedge, runFired_next (exec_tbReset h)]
  · by_cases htick : s.inp.secTick = true
    · simp [hrst, hedge, htick, runFired_next (exec_tbTick h), Operands.tickTime_eq]
    · simp [hrst, hedge, htick, ← hacc]

theorem runFired_earlyOps : Cycle.runFired s (earlyOps s) s = .next (afterEarlyOps s) := by
  rw [earlyOps, List.append_assoc, List.cons_append, List.cons_append, List.nil_append,
    runFired_next (exec_modeSample h), runFired_next (exec_rstEdge h), runFired_timeOps h hrst]
  case hacc => rfl
  cases htick : s.inp.refreshTick with
  | false => simp [reqOps, Cycle.runFired, afterEarlyOps, htick]
  | true => simp [reqOps, runFired_next (exec_refreshReq h), Cycle.runFired, afterEarlyOps, htick]

end early

/-- The fired operations may be run in two parts. -/
theorem runFired_append {s u : State} (js : List Instr) : ∀ {is : List Instr} {acc : State},
    Cycle.runFired s is acc = .next u → Cycle.runFired s (is ++ js) acc = Cycle.runFired s js u
  | [], _, h => by cases h; rfl
  | i :: is, acc, h => by
    obtain ⟨v, hv⟩ := runFired_all _ _ _ h i (by simp)
    rw [runFired_next hv] at h
    rw [List.cons_append, runFired_next hv, runFired_append js h]

/-- A cycle of a running state with an accepted table answers, whatever the inputs. -/
theorem clock_answers {s : State} (h : Running s) (htable : TableAccepted s.cfg) : ∃ t, Cycle.clock s = .next t := by
  cases hrst : s.inp.sysRst with
  | true => exact ⟨_, clock_reset hrst⟩
  | false =>
    obtain ⟨v, hser⟩ := exec_serOp_answers h htable
    refine ⟨Ops.receive s (Ops.commit (serOp s.phase s.pending) v (afterEarlyOps s)), ?_⟩
    rw [Cycle.clock, fired_conditionVector_noReset hrst, runFired_append _ (runFired_earlyOps h hrst),
      runFired_next hser, Cycle.runFired]

/-- Sampling the ports changes nothing a state's running depends on. -/
theorem running_sampled {s : State} : Running (Cycle.sampled s) ↔ Running s := by
  rw [Running, Legal, sampled_resetSeen, sampled_timeValue, sampled_phase]

/-- A clock cycle of a running state with an accepted table answers. -/
theorem step_answers {s : State} (h : Running s) (htable : TableAccepted s.cfg) (hcycle : nextIsCycle s = true) :
    ∃ t, step s = .next t := by
  rw [step_cycle hcycle]
  exact clock_answers (running_sampled.2 h) (by rwa [sampled_cfg])

/-- The state a cycle without reset that answers ran from, and what it comes to. -/
theorem clock_noReset_next {s t : State} (hrst : s.inp.sysRst = false) (h : Cycle.clock s = .next t) :
    Running s ∧ ∃ v, exec (serOp s.phase s.pending) s = .next v ∧
      t = Ops.receive s (Ops.commit (serOp s.phase s.pending) v (afterEarlyOps s)) := by
  obtain ⟨u, v, hearly, hser, ht⟩ := clock_next hrst h
  obtain ⟨w, hmode⟩ := runFired_all _ _ _ hearly .modeSample (by simp [earlyOps])
  obtain ⟨hrunning, -⟩ := operate_next (show execModeSample s = .next w from hmode)
  rw [runFired_earlyOps hrunning hrst] at hearly
  cases hearly
  exact ⟨hrunning, v, hser, ht⟩

/-- A clock cycle leaves the queue to the cycles that follow. -/
theorem clock_stimulus {s t : State} (h : Cycle.clock s = .next t) : t.stimulus = s.stimulus := by
  cases hrst : s.inp.sysRst with
  | true =>
    rw [clock_reset hrst] at h
    cases h
    rfl
  | false =>
    obtain ⟨-, v, -, rfl⟩ := clock_noReset_next hrst h
    rfl

/-- The words a queue begins with, after the first of them has had its cycle. -/
theorem feeds_tail {s t : State} {w : StimWord} {ws : List StimWord} {rest : List Stimulus} (h : feeds s (w :: ws) rest)
    (hstep : step s = .next t) : feeds t ws rest := by
  obtain ⟨hcycle, hsampled⟩ := feeds_cons h
  rw [step_cycle hcycle] at hstep
  rw [feeds, clock_stimulus hstep, hsampled]

end Sys2Proof.Machine

/-! ### The time and the button registers in the cycle (43_timebase_mode.md R161 to R167) -/

namespace Sys2Proof.Machine

open Sys2Proof.Safety

/-- The registers of the MODE, EDGE and TIME groups are written by no SER operation. -/
theorem ownedElsewhere_notMem_writes_serOp (ph : Phase) (q : Bool) :
    .modeQ ∉ Ops.writes (serOp ph q) ∧ .rstPrev ∉ Ops.writes (serOp ph q) ∧
      .timeValue ∉ Ops.writes (serOp ph q) :=
  (show ∀ p ∈ allPhases, ∀ b : Bool, .modeQ ∉ Ops.writes (serOp p b) ∧ .rstPrev ∉ Ops.writes (serOp p b) ∧
    .timeValue ∉ Ops.writes (serOp p b) by decide) ph (mem_allPhases ph) q

/-- R161, R165, R166: the time and the two button registers after a cycle without reset. -/
theorem clock_noReset_timebase {s t : State} (hrst : s.inp.sysRst = false) (h : Cycle.clock s = .next t) :
    t.timeValue = BitVec.ofNat 13 (ruleTime s) ∧ t.rstPrev = s.inp.rstBtnN ∧
      t.modeQ = Flags.modeOf s.inp.modeBtnN := by
  obtain ⟨-, v, -, rfl⟩ := clock_noReset_next hrst h
  obtain ⟨hmode, hprev, htime⟩ := ownedElsewhere_notMem_writes_serOp s.phase s.pending
  simp [Ops.commit, Ops.writesRegister, hmode, hprev, htime, afterEarlyOps]

/-- The rule's time fits the register. -/
theorem ruleTime_le {s : State} (h : s.timeValue.toNat ≤ 5999) : ruleTime s ≤ 5999 := by
  unfold ruleTime
  split_ifs <;> omega

/-- R165, in a cycle with reset and in one without. -/
theorem clock_timeValue {s t : State} (h : Cycle.clock s = .next t) : t.timeValue.toNat = ruleTime s := by
  cases hrst : s.inp.sysRst with
  | true =>
    rw [clock_reset hrst] at h
    cases h
    simp [ruleTime, hrst]
  | false =>
    obtain ⟨hrunning, -⟩ := clock_noReset_next hrst h
    obtain ⟨htime, -⟩ := clock_noReset_timebase hrst h
    have hle := ruleTime_le hrunning.2.1
    rw [htime, BitVec.toNat_ofNat, Nat.mod_eq_of_lt (by omega)]

/-- Settles O35: the rule's next time, of registers that sampling the ports holds. -/
theorem timeValueNext : Obligations.TimeValueNext := by
  intro s t hcycle hstep
  rw [step_cycle hcycle] at hstep
  rw [clock_timeValue hstep, ruleTime, sampled_rstPrev, sampled_timeValue]

theorem mem_reqOps {f : Bool} {i : Instr} (h : i ∈ reqOps f) : i ∈ [Instr.refreshReq] := by
  cases f with
  | false => cases h
  | true => exact h

/-- Among the operations a cycle without reset fires, those that write the time are the TIME group's. -/
theorem mem_fired_iff_mem_timeOps {s : State} {i : Instr} (hrst : s.inp.sysRst = false)
    (hi : .timeValue ∈ Ops.writes i) :
    i ∈ fired (Ops.conditionVector s) ↔ i ∈ timeOps s.rstPrev s.inp.rstBtnN s.inp.secTick := by
  have hser : i ≠ serOp s.phase s.pending := fun he => (ownedElsewhere_notMem_writes_serOp _ _).2.2 (he ▸ hi)
  have hother : ∀ j ∈ [Instr.modeSample, .rstEdge] ++ [.refreshReq], .timeValue ∉ Ops.writes j := by decide
  have hfirst : i ∉ [Instr.modeSample, .rstEdge] := fun hmem => hother i (List.mem_append_left _ hmem) hi
  have hreq : i ∉ reqOps s.inp.refreshTick := fun hmem =>
    hother i (List.mem_append_right _ (mem_reqOps hmem)) hi
  rw [fired_conditionVector_noReset hrst, earlyOps]
  simp only [List.mem_append, List.mem_singleton, hfirst, hreq, hser, false_or, or_false]

/-- R160, R162: TB_RESET fires in the cycles without reset in which the reset gate does. -/
theorem resetEdgeFires_iff {s : State} (hrst : s.inp.sysRst = false) :
    resetEdgeFires s = true ↔ Flags.rstFire s = true := by
  rw [resetEdgeFires, decide_eq_true_iff, mem_fired_iff_mem_timeOps hrst (by decide), timeOps, ← Flags.rstFire]
  cases Flags.rstFire s with
  | true => simp
  | false => cases s.inp.secTick <;> simp

/-- R164: a cycle in which the reset gate fires has no TB_TICK, with sys_rst = 1 or without. -/
theorem tbTick_notMem_fired {s : State} (hfire : Flags.rstFire s = true) :
    .tbTick ∉ fired (Ops.conditionVector s) := by
  cases hrst : s.inp.sysRst with
  | true => simp [fired_conditionVector_reset hrst]
  | false =>
    rw [mem_fired_iff_mem_timeOps hrst (by decide), timeOps, ← Flags.rstFire, hfire]
    simp

/-- Settles O37: the rule's next time is 0 with reset and on the edge, and the cycle of a running state answers. -/
theorem resetEdgeBeatsTick : Obligations.ResetEdgeBeatsTick := by
  intro s hrunning htable hcycle hprev hbtn _
  obtain ⟨t, hstep⟩ := step_answers hrunning htable hcycle
  have htime : t.timeValue.toNat = 0 := by
    rw [timeValueNext s t hcycle hstep]
    simp [hprev, hbtn]
  exact ⟨⟨t, hstep, BitVec.eq_of_toNat_eq htime⟩,
    tbTick_notMem_fired (by simp [Flags.rstFire, hprev, hbtn])⟩

/-- Settles O39: a service shows the mode register of its own cycle, which the cycle before wrote. -/
theorem serviceUsesPreviousButtonLevel : Obligations.ServiceUsesPreviousButtonLevel := by
  intro s t u hcycle hrst hstep hcycle' hservice hstep'
  rw [step_cycle hcycle] at hstep
  rw [step_cycle hcycle'] at hstep'
  obtain ⟨⟨hrst', hpending⟩, hidle⟩ : ((Cycle.sampled t).inp.sysRst = false ∧ (Cycle.sampled t).pending = true) ∧
      (Cycle.sampled t).phase = .idle := by simpa [serviceCycle] using hservice
  obtain ⟨-, -, hmode⟩ := clock_noReset_timebase hrst hstep
  obtain ⟨-, hframe⟩ := clock_service hrst' ⟨hpending, hidle⟩ hstep'
  rw [hframe, ← Flags.modeOf, ← hmode, ← sampled_modeQ t]

end Sys2Proof.Machine

/-! ### The held press of the reset button (43_timebase_mode.md R168) -/

namespace Sys2Proof.Machine

open Sys2Proof.Safety

/-- A cycle without reset in which the button reads pressed: TB_RESET fires if the button read released in the cycle
before, and `rst_prev` keeps the press for the cycle after. -/
theorem step_pressed {s t : State} {w : StimWord} {ws : List StimWord} {rest : List Stimulus}
    (h : feeds s (w :: ws) rest) (hreset : w.getLsbD 4 = false) (hpressed : w.getLsbD 1 = false)
    (hstep : step s = .next t) : resetEdgeFires (Cycle.sampled s) = s.rstPrev ∧ t.rstPrev = false := by
  obtain ⟨hcycle, hsampled⟩ := feeds_cons h
  have hrst : (Cycle.sampled s).inp.sysRst = false := by rw [hsampled]; exact hreset
  have hbtn : (Cycle.sampled s).inp.rstBtnN = false := by rw [hsampled]; exact hpressed
  rw [step_cycle hcycle] at hstep
  obtain ⟨-, hprev, -⟩ := clock_noReset_timebase hrst hstep
  refine ⟨?_, hprev.trans hbtn⟩
  rw [Bool.eq_iff_iff, resetEdgeFires_iff hrst]
  simp [Flags.rstFire, hbtn]

theorem countCycles_succ {p : State → Bool} {n : Nat} {s t : State} (h : step s = .next t) :
    countCycles p (n + 1) s = (if nextIsCycle s && p (Cycle.sampled s) then 1 else 0) + countCycles p n t := by
  rw [countCycles, h]

/-- Once the button reads pressed, TB_RESET does not fire again while it stays so; a cycle that stops fires nothing. -/
theorem countCycles_resetEdgeFires_pressed {rest : List Stimulus} {ws : List StimWord} (hreset : noReset ws)
    (hpressed : ∀ w ∈ ws, w.getLsbD 1 = false) {s : State} (hprev : s.rstPrev = false) (h : feeds s ws rest) :
    countCycles resetEdgeFires ws.length s = 0 := by
  induction ws generalizing s with
  | nil => rfl
  | cons w ws ih =>
    obtain ⟨hresetHead, hresetTail⟩ := List.forall_mem_cons.1 hreset
    obtain ⟨hpressedHead, hpressedTail⟩ := List.forall_mem_cons.1 hpressed
    cases hstep : step s with
    | next t =>
      obtain ⟨hfires, hprev'⟩ := step_pressed h hresetHead hpressedHead hstep
      rw [List.length_cons, countCycles_succ hstep, hfires, hprev,
        ih hresetTail hpressedTail hprev' (feeds_tail h hstep)]
      simp
    | fault r => simp [countCycles, hstep]
    | refused r => simp [countCycles, hstep]

/-- Settles O40: TB_RESET fires in the first cycle, which answers and leaves `rst_prev` pressed for the rest of the press. -/
theorem heldPressFiresOnce : Obligations.HeldPressFiresOnce := by
  refine ⟨fun tv htv => by omega, fun s ws rest hrunning htable hprev hfeeds hreset hpressed hlen => ?_⟩
  obtain _ | ⟨w, ws⟩ := ws
  · cases hlen
  obtain ⟨hresetHead, hresetTail⟩ := List.forall_mem_cons.1 hreset
  obtain ⟨hpressedHead, hpressedTail⟩ := List.forall_mem_cons.1 hpressed
  obtain ⟨hcycle, -⟩ := feeds_cons hfeeds
  obtain ⟨t, hstep⟩ := step_answers hrunning htable hcycle
  obtain ⟨hfires, hprev'⟩ := step_pressed hfeeds hresetHead hpressedHead hstep
  rw [hprev] at hfires
  refine ⟨hfires, ?_⟩
  rw [List.length_cons, countCycles_succ hstep, hcycle, hfires,
    countCycles_resetEdgeFires_pressed hresetTail hpressedTail hprev' (feeds_tail hfeeds hstep)]
  rfl

end Sys2Proof.Machine

/-! ### The cycle as the spec's one step function (43_timebase_mode.md R169, 60_exceptions.md R191) -/

namespace Sys2Proof.Machine

open Sys2Proof.Safety

/-- The writes of the groups outside RESET and SER in a cycle without reset, as 43_timebase_mode.md R169 states them. -/
def ruleEarly (s : State) : State :=
  { s with
    rstPrev := s.inp.rstBtnN
    timeValue := BitVec.ofNat 13 (ruleTime s)
    modeQ := if s.inp.modeBtnN then .clock else .voltage
    pending := s.inp.refreshTick || (s.pending && !decide (s.phase = .idle)) }

section ruleSer

variable {s : State} (t : State)

theorem ruleSer_service (h : s.pending = true ∧ s.phase = .idle) : ruleSer s t =
    { t with frame := serviceFrame s, bitcnt := 0, phase := .setup, slot := s.slot + 1 } := by
  simp [ruleSer, h]

theorem ruleSer_idle (hq : s.pending = false) (h : s.phase = .idle) : ruleSer s t = t := by
  simp [ruleSer, hq, h]

theorem ruleSer_setup (h : s.phase = .setup) : ruleSer s t =
    { t with outData := s.frame.getLsbD (15 - s.bitcnt.toNat), outClk := false, phase := .clkhi } := by
  simp [ruleSer, h]

theorem ruleSer_clkhi_last (h : s.phase = .clkhi) (hn : s.bitcnt = 15) : ruleSer s t =
    { t with outClk := true, phase := .latlo } := by
  simp [ruleSer, h, hn]

theorem ruleSer_clkhi (h : s.phase = .clkhi) (hn : s.bitcnt ≠ 15) : ruleSer s t =
    { t with outClk := true, bitcnt := s.bitcnt + 1, phase := .setup } := by
  have hn' : s.bitcnt.toNat ≠ 15 := fun he => hn (BitVec.eq_of_toNat_eq he)
  simp [ruleSer, h, hn']

theorem ruleSer_latlo (h : s.phase = .latlo) : ruleSer s t =
    { t with outClk := false, outLatch := false, phase := .lathi } := by
  simp [ruleSer, h]

theorem ruleSer_lathi (h : s.phase = .lathi) : ruleSer s t = { t with outLatch := true, phase := .idle } := by
  simp [ruleSer, h]

end ruleSer

section running

variable {s : State} (h : Running s)

include h

theorem exec_serIdle : exec .serIdle s = .next s := by
  rw [exec, execSerIdle, operate_running h]

theorem exec_serSetup : exec .serSetup s =
    .next { s with outData := s.frame.getLsbD (15 - s.bitcnt.toNat), outClk := false, phase := .clkhi } := by
  rw [exec, execSerSetup, operate_running h, Operands.frameBit]

theorem exec_serClkhi_last (hn : s.bitcnt = 15) :
    exec .serClkhi s = .next { s with outClk := true, phase := .latlo } := by
  rw [exec, execSerClkhi, operate_running h, if_pos hn]

theorem exec_serClkhi (hn : s.bitcnt ≠ 15) :
    exec .serClkhi s = .next { s with outClk := true, bitcnt := s.bitcnt + 1, phase := .setup } := by
  rw [exec, execSerClkhi, operate_running h, if_neg hn]

theorem exec_serLatlo : exec .serLatlo s = .next { s with outClk := false, outLatch := false, phase := .lathi } := by
  rw [exec, execSerLatlo, operate_running h]

theorem exec_serLathi : exec .serLathi s = .next { s with outLatch := true, phase := .idle } := by
  rw [exec, execSerLathi, operate_running h]

theorem exec_serStart (seg sel : Byte) :
    exec (.serStart seg sel) s = .next { s with frame := seg ++ sel, bitcnt := 0, phase := .setup } := by
  rw [exec, execSerStart, operate_running h, Ops.startTransfer]

theorem exec_muxService (htable : TableAccepted s.cfg) : exec .muxService s = .next
    { s with
      frame := serviceFrame s, bitcnt := 0, phase := .setup, slot := s.slot + 1, pending := Flags.nextPending s } := by
  rw [exec, execMuxService, operate_running h, Operands.selectByte_accepted htable,
    Operands.activeSegment_eq s h.2.1]
  rfl

theorem exec_muxService_refused (htable : ¬ TableAccepted s.cfg) : exec .muxService s = .refused .selTableRefused := by
  rw [exec, execMuxService, operate_running h, Operands.selectByte_refused htable]

end running

/-- Outside a service cycle the writes of the other groups are the rule's; in one MUX_SERVICE writes `pending` as well. -/
theorem afterEarlyOps_eq {s : State} (hservice : ¬ (s.pending = true ∧ s.phase = .idle)) :
    afterEarlyOps s = ruleEarly s := by
  have hpending : (if s.inp.refreshTick then Flags.nextPending s else s.pending) =
      (s.inp.refreshTick || (s.pending && !decide (s.phase = .idle))) := by
    unfold Flags.nextPending Flags.service
    cases hq : s.pending <;> cases s.inp.refreshTick <;> simp_all
  rw [afterEarlyOps, hpending, Flags.modeOf, ruleEarly]

/-- The SER operation of a running state's cycle, where it is not refused, answers, and its writes put over those of the
other groups come to the rule's SER case. -/
theorem exec_serOp_rule {s : State} (h : Running s)
    (htable : s.pending = true ∧ s.phase = .idle → TableAccepted s.cfg) :
    ∃ v, exec (serOp s.phase s.pending) s = .next v ∧
      Ops.commit (serOp s.phase s.pending) v (afterEarlyOps s) = ruleSer s (ruleEarly s) := by
  have ⟨_, _, h5, h6, h7⟩ := h
  by_cases hservice : s.pending = true ∧ s.phase = .idle
  · rw [(serOp_eq_muxService_iff _ _).2 hservice]
    refine ⟨_, exec_muxService h (htable hservice), ?_⟩
    simp [ruleSer_service _ hservice, afterEarlyOps, ruleEarly, Flags.nextPending, Flags.service, Flags.modeOf, hservice]
  rw [afterEarlyOps_eq hservice]
  cases hphase : s.phase with
  | idle =>
    have hq : s.pending = false := by simpa [hphase] using hservice
    rw [hq]
    exact ⟨_, exec_serIdle h, (ruleSer_idle _ hq hphase).symm⟩
  | setup => exact ⟨_, exec_serSetup h, (ruleSer_setup _ hphase).symm⟩
  | clkhi =>
    by_cases hn : s.bitcnt = 15
    · exact ⟨_, exec_serClkhi_last h hn, (ruleSer_clkhi_last _ hphase hn).symm⟩
    · exact ⟨_, exec_serClkhi h hn, (ruleSer_clkhi _ hphase hn).symm⟩
  | latlo => exact ⟨_, exec_serLatlo h, (ruleSer_latlo _ hphase).symm⟩
  | lathi => exact ⟨_, exec_serLathi h, (ruleSer_lathi _ hphase).symm⟩
  | reserved5 => exact absurd hphase h5
  | reserved6 => exact absurd hphase h6
  | reserved7 => exact absurd hphase h7

/-- Where MODE_SAMPLE, the first operation of a cycle without reset, stops, the cycle stops with its fault. -/
theorem clock_fault {s : State} {r : Fault} (hrst : s.inp.sysRst = false) (hmode : execModeSample s = .fault r) :
    Cycle.clock s = .fault r := by
  rw [Cycle.clock, fired_conditionVector_noReset hrst, earlyOps, List.cons_append, List.cons_append, List.cons_append,
    runFired_fault (i := .modeSample) hmode]

/-- R221: before the first reset a cycle without reset stops. -/
theorem clock_unreset {s : State} (hrst : s.inp.sysRst = false) (h : s.resetSeen = false) :
    Cycle.clock s = .fault .unreset :=
  clock_fault hrst (operate_unreset h _)

/-- R44: in an unreachable state a cycle without reset stops. -/
theorem clock_illegal {s : State} (hrst : s.inp.sysRst = false) (h : s.resetSeen = true) (hl : ¬ Legal s) :
    Cycle.clock s = .fault .unreachableState :=
  clock_fault hrst (operate_illegal h hl _)

/-- R97: a service cycle of a running state with a refused table is refused. -/
theorem clock_refused {s : State} (hrst : s.inp.sysRst = false) (h : Running s)
    (hservice : s.pending = true ∧ s.phase = .idle) (htable : ¬ TableAccepted s.cfg) :
    Cycle.clock s = .refused .selTableRefused := by
  rw [Cycle.clock, fired_conditionVector_noReset hrst, (serOp_eq_muxService_iff _ _).2 hservice,
    runFired_append _ (runFired_earlyOps h hrst), Cycle.runFired, exec_muxService_refused h htable]

/-- R169: a cycle without reset of a running state, where it is not refused. -/
theorem clock_running {s : State} (hrst : s.inp.sysRst = false) (h : Running s)
    (htable : s.pending = true ∧ s.phase = .idle → TableAccepted s.cfg) :
    Cycle.clock s = .next (Ops.receive s (ruleSer s (ruleEarly s))) := by
  obtain ⟨v, hser, hcommit⟩ := exec_serOp_rule h htable
  rw [Cycle.clock, fired_conditionVector_noReset hrst, runFired_append _ (runFired_earlyOps h hrst),
    runFired_next hser, hcommit, Cycle.runFired]

/-- R169: the cycle of a state whose ports hold the cycle's levels is the rule's step, stop by stop. -/
theorem clock_eq_ruleStep (s : State) : Cycle.clock s = ruleStep s := by
  unfold ruleStep
  split
  next hrst => exact clock_reset hrst
  next hrst =>
  rw [Bool.not_eq_true] at hrst
  split
  next hseen => exact clock_unreset hrst hseen
  next hseen =>
  rw [Bool.not_eq_false] at hseen
  split
  next hlegal => exact clock_illegal hrst hseen hlegal
  next hlegal =>
  rw [not_not] at hlegal
  split
  next hrefused =>
    obtain ⟨hq, hidle, htable⟩ := hrefused
    exact clock_refused hrst ⟨hseen, hlegal⟩ ⟨hq, hidle⟩ htable
  next hrefused =>
    exact clock_running hrst ⟨hseen, hlegal⟩ fun ⟨hq, hidle⟩ =>
      not_not.1 fun htable => hrefused ⟨hq, hidle, htable⟩

/-- Settles O28: the fired operations' writes gathered over one state are the rule's one function of it. -/
theorem cycleIsTheSpecStep : Obligations.CycleIsTheSpecStep := fun s hcycle => by
  rw [step_cycle hcycle, clock_eq_ruleStep]

/-- Settles O32: the rule's first stop. -/
theorem unresetFaults : Obligations.UnresetFaults := fun s hcycle hrst hseen => by
  rw [step_cycle hcycle, clock_unreset hrst (by rwa [sampled_resetSeen])]

/-- A state is legal, by the registers the two kinds of unreachable state name (10_state.md R44). -/
theorem not_legal_iff {s : State} :
    ¬ Legal s ↔ 5999 < s.timeValue.toNat ∨ s.phase ∈ [Phase.reserved5, .reserved6, .reserved7] := by
  simp only [Legal, List.mem_cons, List.not_mem_nil, or_false]
  rw [← Nat.not_le]
  tauto

theorem legal_sampled {s : State} : Legal (Cycle.sampled s) ↔ Legal s := by
  rw [Legal, sampled_timeValue, sampled_phase]

/-- Settles O31: the rule's second stop. -/
theorem unreachableStateFaults : Obligations.UnreachableStateFaults := fun s hcycle hrst hseen hbad => by
  rw [step_cycle hcycle, clock_illegal hrst (by rwa [sampled_resetSeen]) (mt legal_sampled.1 (not_legal_iff.2 hbad))]

/-- A cycle without reset of a running state stops with no fault: it answers, or it is refused. -/
theorem clock_running_ne_fault {s : State} (hrst : s.inp.sysRst = false) (h : Running s) (r : Fault) :
    Cycle.clock s ≠ .fault r := by
  by_cases htable : s.pending = true ∧ s.phase = .idle → TableAccepted s.cfg
  · rw [clock_running hrst h htable]
    exact nofun
  · obtain ⟨hservice, hbad⟩ := Classical.not_imp.1 htable
    rw [clock_refused hrst h hservice hbad]
    exact nofun

/-- R191 in the cycle of a state whose ports hold the cycle's levels. -/
theorem clock_fault_iff (s : State) :
    (Cycle.clock s = .fault .unreset ↔ s.inp.sysRst = false ∧ s.resetSeen = false) ∧
      (Cycle.clock s = .fault .unreachableState ↔ s.inp.sysRst = false ∧ s.resetSeen = true ∧ ¬ Legal s) := by
  cases hrst : s.inp.sysRst with
  | true => simp [clock_reset hrst]
  | false =>
    cases hseen : s.resetSeen with
    | false => simp [clock_unreset hrst hseen]
    | true =>
      by_cases hlegal : Legal s
      · have hne := clock_running_ne_fault hrst ⟨hseen, hlegal⟩
        exact ⟨iff_of_false (hne _) (by simp), iff_of_false (hne _) fun ⟨_, _, hbad⟩ => hbad hlegal⟩
      · simp [clock_illegal hrst hseen hlegal, hlegal]

/-- Settles O33: each stop has its own condition, and the conditions exclude each other. -/
theorem faultsExactlyWhen : Obligations.FaultsExactlyWhen := by
  intro s hcycle
  rw [step_cycle hcycle, ← sampled_resetSeen s, ← legal_sampled]
  exact clock_fault_iff (Cycle.sampled s)

/-- Settles O34: every operation a running state's cycle fires answers. -/
theorem legalStateAlwaysSteps : Obligations.LegalStateAlwaysSteps := fun _ hrunning htable hcycle =>
  step_answers hrunning htable hcycle

end Sys2Proof.Machine

/-! ### What a step that answers comes to (43_timebase_mode.md R169, log 7) -/

namespace Sys2Proof.Machine

open Sys2Proof.Safety

section ruleSer

variable (s t : State)

@[simp] theorem ruleSer_timeValue : (ruleSer s t).timeValue = t.timeValue := by unfold ruleSer; (repeat' split) <;> rfl
@[simp] theorem ruleSer_pending : (ruleSer s t).pending = t.pending := by unfold ruleSer; (repeat' split) <;> rfl
@[simp] theorem ruleSer_resetSeen : (ruleSer s t).resetSeen = t.resetSeen := by unfold ruleSer; (repeat' split) <;> rfl
@[simp] theorem ruleSer_cfg : (ruleSer s t).cfg = t.cfg := by unfold ruleSer; (repeat' split) <;> rfl

end ruleSer

/-- The state after a cycle without reset of a running state (43_timebase_mode.md R169). -/
def afterCycle (s : State) : State := Ops.receive s (ruleSer s (ruleEarly s))

/-- What a cycle without reset that answers ran from, and what it comes to: the inverse of `clock_running`. -/
theorem clock_noReset_inv {s t : State} (hrst : s.inp.sysRst = false) (h : Cycle.clock s = .next t) :
    Running s ∧ (s.pending = true ∧ s.phase = .idle → TableAccepted s.cfg) ∧ t = afterCycle s := by
  obtain ⟨hrunning, -⟩ := clock_noReset_next hrst h
  by_cases htable : s.pending = true ∧ s.phase = .idle → TableAccepted s.cfg
  · rw [clock_running hrst hrunning htable] at h
    cases h
    exact ⟨hrunning, htable, rfl⟩
  · obtain ⟨hservice, hbad⟩ := Classical.not_imp.1 htable
    rw [clock_refused hrst hrunning hservice hbad] at h
    cases h

/-- Everything a step that answers can be: a call, a cycle with reset, or a cycle without. -/
theorem step_next_cases {s t : State} (h : step s = .next t) :
    (nextIsCycle s = false ∧ ∃ r rest, t = { s with result := r, stimulus := rest }) ∨
    (nextIsCycle s = true ∧ (Cycle.sampled s).inp.sysRst = true ∧
      t = Ops.receive (Cycle.sampled s) (Ops.resetBlock (Cycle.sampled s))) ∨
    (nextIsCycle s = true ∧ (Cycle.sampled s).inp.sysRst = false ∧ Running s ∧
      (s.pending = true ∧ s.phase = .idle → TableAccepted s.cfg) ∧ t = afterCycle (Cycle.sampled s)) := by
  cases hcycle : nextIsCycle s with
  | false =>
    obtain ⟨w, rest, -, hcall⟩ := step_call hcycle
    exact .inl ⟨rfl, t.result, rest, exec_decodeCall_next (hcall.symm.trans h)⟩
  | true =>
    rw [step_cycle hcycle] at h
    cases hrst : (Cycle.sampled s).inp.sysRst with
    | true =>
      rw [clock_reset hrst] at h
      cases h
      exact .inr (.inl ⟨rfl, rfl, rfl⟩)
    | false =>
      obtain ⟨hrunning, htable, rfl⟩ := clock_noReset_inv hrst h
      rw [sampled_pending, sampled_phase, sampled_cfg] at htable
      exact .inr (.inr ⟨rfl, rfl, running_sampled.1 hrunning, htable, rfl⟩)

@[simp] theorem afterCycle_pending (s : State) :
    (afterCycle s).pending = (s.inp.refreshTick || (s.pending && !decide (s.phase = .idle))) := by
  simp [afterCycle, ruleEarly]

@[simp] theorem afterCycle_timeValue (s : State) : (afterCycle s).timeValue = BitVec.ofNat 13 (ruleTime s) := by
  simp [afterCycle, ruleEarly]

@[simp] theorem afterCycle_resetSeen (s : State) : (afterCycle s).resetSeen = s.resetSeen := by
  simp [afterCycle, ruleEarly]

@[simp] theorem afterCycle_cfg (s : State) : (afterCycle s).cfg = s.cfg := by simp [afterCycle, ruleEarly]

section afterCycle

variable {s : State}

theorem afterCycle_service (h : s.pending = true ∧ s.phase = .idle) : afterCycle s = Ops.receive s
    { ruleEarly s with frame := serviceFrame s, bitcnt := 0, phase := .setup, slot := s.slot + 1 } := by
  rw [afterCycle, ruleSer_service _ h]

theorem afterCycle_idle (hq : s.pending = false) (h : s.phase = .idle) :
    afterCycle s = Ops.receive s (ruleEarly s) := by
  rw [afterCycle, ruleSer_idle _ hq h]

theorem afterCycle_setup (h : s.phase = .setup) : afterCycle s = Ops.receive s
    { ruleEarly s with outData := s.frame.getLsbD (15 - s.bitcnt.toNat), outClk := false, phase := .clkhi } := by
  rw [afterCycle, ruleSer_setup _ h]

theorem afterCycle_clkhi_last (h : s.phase = .clkhi) (hn : s.bitcnt = 15) : afterCycle s = Ops.receive s
    { ruleEarly s with outClk := true, phase := .latlo } := by
  rw [afterCycle, ruleSer_clkhi_last _ h hn]

theorem afterCycle_clkhi (h : s.phase = .clkhi) (hn : s.bitcnt ≠ 15) : afterCycle s = Ops.receive s
    { ruleEarly s with outClk := true, bitcnt := s.bitcnt + 1, phase := .setup } := by
  rw [afterCycle, ruleSer_clkhi _ h hn]

theorem afterCycle_latlo (h : s.phase = .latlo) : afterCycle s = Ops.receive s
    { ruleEarly s with outClk := false, outLatch := false, phase := .lathi } := by
  rw [afterCycle, ruleSer_latlo _ h]

theorem afterCycle_lathi (h : s.phase = .lathi) : afterCycle s = Ops.receive s
    { ruleEarly s with outLatch := true, phase := .idle } := by
  rw [afterCycle, ruleSer_lathi _ h]

end afterCycle

/-- Settles O38: the EDGE and MODE operations of a cycle without reset sample the two buttons. -/
theorem buttonsAreSampledEveryCycle : Obligations.ButtonsAreSampledEveryCycle := by
  intro s t hcycle hrst hstep
  rw [step_cycle hcycle] at hstep
  obtain ⟨-, hprev, hmode⟩ := clock_noReset_timebase hrst hstep
  refine ⟨hprev, ?_⟩
  rw [hmode, Flags.modeOf]
  cases (Cycle.sampled s).inp.modeBtnN <;> simp

/-- Settles O41: `pending` by its one writing expression, which in the rule's step names the phase alone. -/
theorem pendingNext : Obligations.PendingNext := by
  intro s t hcycle hrst hstep
  rw [step_cycle hcycle] at hstep
  obtain ⟨-, -, rfl⟩ := clock_noReset_inv hrst hstep
  rw [afterCycle_pending, sampled_pending, sampled_phase]
  cases s.pending <;> rfl

/-- The slot map does not look at the millivolts in Clock mode. -/
theorem slotMap_clock (slot tv mv mv' : Nat) : slotMap .clock slot tv mv = slotMap .clock slot tv mv' := by
  rcases slot with _ | _ | _ | _ <;> rfl

/-- R140: a service frame is a function of the time, the mode, the slot, the parameters and, in Voltage mode, the
millivolts. -/
theorem serviceFrame_congr {a b : State} (htime : a.timeValue = b.timeValue) (hmode : a.modeQ = b.modeQ)
    (hslot : a.slot = b.slot) (hcfg : a.cfg = b.cfg) (hmv : a.modeQ = .voltage → a.inp.mvIn = b.inp.mvIn) :
    serviceFrame a = serviceFrame b := by
  have hshown : shown a = shown b := by
    rw [shown, shown, ← htime, ← hmode, ← hslot]
    cases hm : a.modeQ with
    | clock => exact slotMap_clock ..
    | voltage => rw [hmv hm]
  simp only [serviceFrame, hshown, hcfg, hslot]

theorem serviceCycle_iff {s : State} :
    serviceCycle s = true ↔ s.inp.sysRst = false ∧ s.pending = true ∧ s.phase = .idle := by
  simp [serviceCycle, and_assoc]

/-- R132 in the step: a service cycle that answers starts its service frame. -/
theorem step_service_frame {s t : State} (hcycle : nextIsCycle s = true)
    (hservice : serviceCycle (Cycle.sampled s) = true) (hstep : step s = .next t) :
    t.frame = serviceFrame (Cycle.sampled s) := by
  rw [step_cycle hcycle] at hstep
  obtain ⟨hrst, hactive⟩ := serviceCycle_iff.1 hservice
  exact (clock_service hrst hactive hstep).2

/-- Settles O43: both frames are the service frames of their cycles. -/
theorem frameDependsOnServiceCycleOnly : Obligations.FrameDependsOnServiceCycleOnly := by
  intro a b a' b' hcycle hcycle' hservice hservice' htime hmode hslot hcfg hmv hstep hstep'
  rw [step_service_frame hcycle hservice hstep, step_service_frame hcycle' hservice' hstep']
  apply serviceFrame_congr <;> simpa

/-! ### The bounds, the parameters and the receiver in every step (10_state.md R41, R43, 60_exceptions.md R198) -/

/-- The serializer goes to no reserved phase. -/
theorem legal_afterCycle {s : State} (h : Legal s) : Legal (afterCycle s) := by
  obtain ⟨htime, h5, h6, h7⟩ := h
  have hle := ruleTime_le htime
  refine ⟨?_, ?_⟩
  · rw [afterCycle_timeValue, BitVec.toNat_ofNat, Nat.mod_eq_of_lt (by omega)]
    exact hle
  · unfold afterCycle ruleSer
    repeat' split
    all_goals simp_all [ruleEarly]

theorem running_resetBlock (s : State) : Running (Ops.resetBlock s) := by simp [Running, Legal]

/-- A clock cycle that answers ends within the bounds, whatever it began with. -/
theorem clock_running_next {s t : State} (h : Cycle.clock s = .next t) : Running t := by
  cases hrst : s.inp.sysRst with
  | true =>
    rw [clock_reset hrst] at h
    cases h
    exact running_resetBlock s
  | false =>
    obtain ⟨hrunning, -, rfl⟩ := clock_noReset_inv hrst h
    exact ⟨(afterCycle_resetSeen s).trans hrunning.1, legal_afterCycle hrunning.2⟩

/-- Settles O53: a call holds the registers, and a clock cycle that answers ends within the bounds. -/
theorem everyStepKeepsLegality : Obligations.EveryStepKeepsLegality := by
  intro s t hstep
  have hclock : nextIsCycle s = true → Running t := fun hcycle =>
    clock_running_next ((step_cycle hcycle).symm.trans hstep)
  refine ⟨fun hrunning => ?_, fun hcycle _ => hclock hcycle, hclock⟩
  obtain ⟨-, r, rest, rfl⟩ | ⟨hcycle, -⟩ | ⟨hcycle, -⟩ := step_next_cases hstep
  · exact hrunning
  · exact hclock hcycle
  · exact hclock hcycle

theorem step_cfg {s t : State} (h : step s = .next t) : t.cfg = s.cfg := by
  obtain ⟨-, r, rest, rfl⟩ | ⟨-, -, rfl⟩ | ⟨-, -, -, -, rfl⟩ := step_next_cases h
  · rfl
  · simp
  · simp

/-- Settles O56, by induction on the length of the run. -/
theorem parametersNeverChange : Obligations.ParametersNeverChange := by
  intro n
  induction n with
  | zero =>
    intro s t hrun
    cases hrun
    rfl
  | succ n ih =>
    intro s t hrun
    obtain ⟨u, hstep, hrest⟩ := run_succ_inv hrun
    exact (ih u t hrest).trans (step_cfg hstep)

/-- A clock cycle ends with the receiver's reaction. -/
theorem clock_receive {s t : State} (h : Cycle.clock s = .next t) : ∃ u, t = Ops.receive s u := by
  cases hrst : s.inp.sysRst with
  | true =>
    rw [clock_reset hrst] at h
    cases h
    exact ⟨_, rfl⟩
  | false =>
    obtain ⟨-, -, rfl⟩ := clock_noReset_inv hrst h
    exact ⟨_, rfl⟩

/-- R198: the receiver's chain and outputs after a clock cycle, from the lines before and after the edge. -/
theorem clock_chain_outReg {s t : State} (h : Cycle.clock s = .next t) :
    t.chain = (if s.outClk = false ∧ t.outClk = true then s.chain.extractLsb' 0 15 ++ bit t.outData else s.chain) ∧
      t.outReg = if s.outLatch = false ∧ t.outLatch = true then s.chain else s.outReg := by
  obtain ⟨u, rfl⟩ := clock_receive h
  exact ⟨receive_chain s u, receive_outReg s u⟩

/-- Settles O47: a call moves no line and nothing of the receiver, and in a clock cycle the receiver takes the lines. -/
theorem receiverFollowsTheLines : Obligations.ReceiverFollowsTheLines := by
  intro s t hstep
  cases hcycle : nextIsCycle s with
  | false =>
    obtain ⟨w, rest, -, hcall⟩ := step_call hcycle
    rw [exec_decodeCall_next (hcall.symm.trans hstep)]
    simp
  | true =>
    rw [step_cycle hcycle] at hstep
    obtain ⟨hchain, hout⟩ := clock_chain_outReg hstep
    rw [sampled_chain, sampled_outClk] at hchain
    rw [sampled_chain, sampled_outReg, sampled_outLatch] at hout
    exact ⟨fun hrise => hchain.trans (if_pos hrise), fun hrise => hchain.trans (if_neg hrise),
      fun hrise => hout.trans (if_pos hrise), fun hrise => hout.trans (if_neg hrise), nofun⟩

end Sys2Proof.Machine

/-! ### The requests and services of a run (42_multiplexer.md R130, R139) -/

namespace Sys2Proof.Machine

open Sys2Proof.Safety

/-- R139 in one cycle without reset: the request a cycle begins with and its tick are served, pending after it, or lost. -/
theorem afterCycle_request_balance {s : State} (hrst : s.inp.sysRst = false) :
    (if serviceCycle s then 1 else 0) + (if (afterCycle s).pending then 1 else 0) + (if tickLost s then 1 else 0) =
      (if s.inp.refreshTick then 1 else 0) + (if s.pending then 1 else 0) := by
  rw [afterCycle_pending, serviceCycle, tickLost, hrst]
  cases s.pending <;> cases s.inp.refreshTick <;> by_cases hidle : s.phase = .idle <;> simp [hidle]

/-- The contribution of one step to a count over cycles (30_encoding.md R70): a call is no cycle. -/
def cycleCount (p : State → Bool) (s : State) : Nat := if nextIsCycle s && p (Cycle.sampled s) then 1 else 0

theorem cycleCount_call {s : State} (p : State → Bool) (h : nextIsCycle s = false) : cycleCount p s = 0 := by
  simp [cycleCount, h]

theorem cycleCount_cycle {s : State} (p : State → Bool) (h : nextIsCycle s = true) :
    cycleCount p s = if p (Cycle.sampled s) then 1 else 0 := by
  simp [cycleCount, h]

theorem countCycles_step {p : State → Bool} {n : Nat} {s t : State} (h : step s = .next t) :
    countCycles p (n + 1) s = cycleCount p s + countCycles p n t :=
  countCycles_succ h

/-- R139 in one step, which is a call, a cycle with reset, or a cycle without. -/
theorem step_request_balance {s t : State} (h : step s = .next t) :
    cycleCount serviceCycle s + (if t.pending then 1 else 0) ≤
        cycleCount (fun c => c.inp.refreshTick) s + (if s.pending then 1 else 0) ∧
      (cycleCount (fun c => c.inp.sysRst) s = 0 →
        cycleCount serviceCycle s + (if t.pending then 1 else 0) + cycleCount tickLost s =
          cycleCount (fun c => c.inp.refreshTick) s + (if s.pending then 1 else 0)) := by
  obtain ⟨hcall, r, rest, rfl⟩ | ⟨hcycle, hrst, rfl⟩ | ⟨hcycle, hrst, -, -, rfl⟩ := step_next_cases h
  · simp [cycleCount_call _ hcall]
  · simp [cycleCount_cycle _ hcycle, serviceCycle, hrst]
  · have hbalance := afterCycle_request_balance hrst
    rw [sampled_pending] at hbalance
    simp only [cycleCount_cycle _ hcycle]
    exact ⟨by omega, fun _ => hbalance⟩

/-- Settles O44: the balance of one step, added up over the run. -/
theorem servicesAtMostTicks : Obligations.ServicesAtMostTicks := by
  intro n
  induction n with
  | zero =>
    intro s t hrun
    cases hrun
    simp [countCycles]
  | succ n ih =>
    intro s t hrun
    obtain ⟨u, hstep, hrest⟩ := run_succ_inv hrun
    obtain ⟨hle, heq⟩ := step_request_balance hstep
    obtain ⟨hle', heq'⟩ := ih u t hrest
    simp only [countCycles_step hstep]
    refine ⟨by omega, fun hreset => ?_⟩
    have hhead := heq (by omega)
    have htail := heq' (by omega)
    omega

end Sys2Proof.Machine

/-! ### The writes of the fired operations, landed together (00_scope.md R7, 30_encoding.md R74, R76) -/

namespace Sys2Proof.Machine

open Sys2Proof.Safety

/-- `t` holds `u`'s value of a register. -/
def SameRegister (f : Register) (u t : State) : Prop := copyRegister u t f = t

/-- What a register is copied from matters only in that register. -/
theorem copyRegister_copyRegister (u v t : State) (f : Register) :
    copyRegister (copyRegister u v f) t f = copyRegister u t f := by
  cases f <;> rfl

theorem SameRegister.trans {f : Register} {u v t : State} (h : SameRegister f u v) (h' : SameRegister f v t) :
    SameRegister f u t := by
  rw [SameRegister, ← copyRegister_copyRegister u v t f, h]
  exact h'

theorem sameRegister_commit_of_mem {f : Register} {i : Instr} (h : f ∈ Ops.writes i) (u acc : State) :
    SameRegister f u (Ops.commit i u acc) := by
  unfold SameRegister
  cases f <;> simp [copyRegister, Ops.commit, Ops.writesRegister, h]

theorem sameRegister_commit_of_notMem {f : Register} {i : Instr} (h : f ∉ Ops.writes i) (v acc : State) :
    SameRegister f acc (Ops.commit i v acc) := by
  unfold SameRegister
  cases f <;> simp [copyRegister, Ops.commit, Ops.writesRegister, h]

theorem sameRegister_receive (f : Register) (s t : State) : SameRegister f t (Ops.receive s t) := by
  unfold SameRegister
  cases f <;> rfl

theorem sameRegister_sampled (f : Register) (s : State) : SameRegister f s (Cycle.sampled s) := by
  obtain ⟨inp, rest, n, h⟩ := sampled_registers s
  rw [SameRegister, h]
  cases f <;> rfl

/-- A register's value outlasts the operations that do not write it, and those that write the same value. -/
theorem runFired_sameRegister {f : Register} {s t w : State} : ∀ {is : List Instr} {acc : State},
    Cycle.runFired s is acc = .next t → SameRegister f w acc →
    (∀ j ∈ is, f ∈ Ops.writes j → ∀ v, exec j s = .next v → SameRegister f w v) → SameRegister f w t
  | [], _, h, hacc, _ => by cases h; exact hacc
  | j :: js, acc, h, hacc, hwrites => by
    obtain ⟨v, hv⟩ := runFired_all _ _ _ h j (by simp)
    rw [runFired_next hv] at h
    refine runFired_sameRegister h ?_ fun k hk => hwrites k (by simp [hk])
    by_cases hf : f ∈ Ops.writes j
    · exact (hwrites j (by simp) hf v hv).trans (sameRegister_commit_of_mem hf v acc)
    · exact hacc.trans (sameRegister_commit_of_notMem hf v acc)

/-- Two fired operations that write one register write one value to it: of two different ones the register is `pending`
(30_encoding.md R76). -/
theorem fired_sameRegister {s u v : State} {i j : Instr} {f : Register} (hi : i ∈ fired (Ops.conditionVector s))
    (hj : j ∈ fired (Ops.conditionVector s)) (hfi : f ∈ Ops.writes i) (hfj : f ∈ Ops.writes j)
    (hu : exec i s = .next u) (hv : exec j s = .next v) : SameRegister f u v := by
  by_cases hij : i = j
  · subst hij
    cases hu.symm.trans hv
    cases f <;> rfl
  · obtain ⟨rfl, ⟨rfl, rfl⟩ | ⟨rfl, rfl⟩⟩ := fired_writers hi hj hij hfi hfj
    · rw [SameRegister, copyRegister, refreshReq_pending hu, ← muxService_pending hv]
    · rw [SameRegister, copyRegister, muxService_pending hu, ← refreshReq_pending hv]

/-- R7, R74: what a fired operation writes is in the state the operations come to. -/
theorem runFired_lands {s t u : State} {i : Instr} {f : Register}
    (h : Cycle.runFired s (fired (Ops.conditionVector s)) s = .next t) (hi : i ∈ fired (Ops.conditionVector s))
    (hu : exec i s = .next u) (hf : f ∈ Ops.writes i) : SameRegister f u t := by
  obtain ⟨before, after, hsplit⟩ := List.append_of_mem hi
  have hsame : ∀ j ∈ after, f ∈ Ops.writes j → ∀ v, exec j s = .next v → SameRegister f u v := fun j hj hfj v hv =>
    fired_sameRegister hi (by simp [hsplit, hj]) hf hfj hu hv
  rw [hsplit] at h
  obtain ⟨acc, -, hrest⟩ := runFired_append_inv h
  rw [runFired_next hu] at hrest
  exact runFired_sameRegister hrest (sameRegister_commit_of_mem hf u acc) hsame

/-- Settles O26: an operation's writes outlast the operations after it, which write other registers or the same value. -/
theorem cycleLandsEveryWrite : Obligations.CycleLandsEveryWrite := by
  intro s t hcycle hstep
  rw [step_cycle hcycle, Cycle.clock] at hstep
  split at hstep
  case h_1 w hrun =>
    cases hstep
    refine ⟨fun i hi => ?_, fun f hf => ?_⟩
    · obtain ⟨u, hu⟩ := runFired_all _ _ _ hrun i hi
      exact ⟨u, hu, fun f hf => (runFired_lands hrun hi hu hf).trans (sameRegister_receive f _ w)⟩
    · have hheld : SameRegister f s w := runFired_sameRegister hrun (sameRegister_sampled f s)
        fun j hj hfj => absurd hfj (hf j hj)
      exact hheld.trans (sameRegister_receive f _ w)
  all_goals cases hstep

end Sys2Proof.Machine

/-! ### The invariant of the serializer and the receiver (41_serializer.md R113 to R119, 60_exceptions.md R198) -/

namespace Sys2Proof.Machine

open Sys2Proof.Safety

/-- The bits of a frame that a chain of `n` bits taken so far holds (20_memory.md R55). -/
theorem chain_takes_bit {chain frame : BitVec 16} {n : Nat} (hn : n < 16)
    (h : ∀ j : Fin 16, j.val < n → chain.getLsbD j.val = frame.getLsbD (16 - n + j.val)) (j : Fin 16)
    (hj : j.val < n + 1) :
    (chain.extractLsb' 0 15 ++ bit (frame.getLsbD (15 - n))).getLsbD j.val = frame.getLsbD (16 - (n + 1) + j.val) := by
  obtain ⟨j, hlt⟩ := j
  rw [BitVec.getLsbD_append]
  cases j with
  | zero =>
    simp [show 16 - (n + 1) = 15 - n by omega]
  | succ j =>
    have hprev := h ⟨j, by omega⟩ (by simpa using hj)
    have hidx : 15 - n + (j + 1) = 16 - n + j := by omega
    simpa [show j < 15 by omega, hidx] using hprev

theorem bitsShifted_eq_sixteen {s : State} (h : s.phase = .latlo ∨ s.phase = .lathi) : bitsShifted s = 16 := by
  rcases h with h | h <;> simp [bitsShifted, h]

/-- A chain that has taken all sixteen bits is the frame. -/
theorem chain_eq_frame {s : State} (h : ChainInv s) (hbits : bitsShifted s = 16) : s.chain = s.frame := by
  refine BitVec.eq_of_getLsbD_eq fun j hj => ?_
  simpa [hbits] using h ⟨j, hj⟩ (by simpa [hbits] using hj)

/-- What the clock's rising edge needs of the lines: in CLKHI the clock line is low and the data line holds the current bit
(41_serializer.md R117). -/
def ClockReady (s : State) : Prop :=
  s.phase = .clkhi → s.outClk = false ∧ s.outData = s.frame.getLsbD (15 - s.bitcnt.toNat)

theorem clockReady_of_linesInv {s : State} (h : LinesInv s) : ClockReady s := by
  obtain ⟨-, hclk, hdata, -⟩ := h
  exact fun hphase => ⟨by simp [hclk, hphase], hdata hphase⟩

/-- The chain in each phase: it moves in CLKHI alone, and there takes the current bit. -/
theorem chainInv_afterCycle {s : State} (hlegal : Legal s) (hready : ClockReady s) (h : ChainInv s) :
    ChainInv (afterCycle s) := by
  obtain ⟨-, h5, h6, h7⟩ := hlegal
  have hn := s.bitcnt.isLt
  cases hphase : s.phase with
  | idle =>
    cases hq : s.pending with
    | false =>
      rw [afterCycle_idle hq hphase]
      simp [ChainInv, bitsShifted, ruleEarly, hphase]
    | true =>
      rw [afterCycle_service ⟨hq, hphase⟩]
      simp [ChainInv, bitsShifted]
  | setup =>
    rw [afterCycle_setup hphase]
    simpa [ChainInv, bitsShifted, receive_chain, ruleEarly, hphase] using h
  | clkhi =>
    obtain ⟨hclk, hdata⟩ := hready hphase
    have htake := chain_takes_bit hn (by simpa [ChainInv, bitsShifted, hphase] using h)
    by_cases hlast : s.bitcnt = 15
    · rw [afterCycle_clkhi_last hphase hlast]
      simpa [ChainInv, bitsShifted, receive_chain, ruleEarly, hclk, hdata, hlast] using htake
    · rw [afterCycle_clkhi hphase hlast]
      have hsucc : (s.bitcnt.toNat + 1) % 16 = s.bitcnt.toNat + 1 := by bv_omega
      simpa [ChainInv, bitsShifted, receive_chain, ruleEarly, hclk, hdata, hsucc] using htake
  | latlo =>
    rw [afterCycle_latlo hphase]
    simpa [ChainInv, bitsShifted, receive_chain, ruleEarly, hphase] using h
  | lathi =>
    rw [afterCycle_lathi hphase]
    simp [ChainInv, bitsShifted]
  | reserved5 => exact absurd hphase h5
  | reserved6 => exact absurd hphase h6
  | reserved7 => exact absurd hphase h7

/-- R113 to R119: each phase leaves the lines the next one starts from. -/
theorem linesInv_afterCycle {s : State} (hlegal : Legal s) (h : LinesInv s) : LinesInv (afterCycle s) := by
  obtain ⟨-, h5, h6, h7⟩ := hlegal
  obtain ⟨hlatch, hclk, -, hlast⟩ := h
  cases hphase : s.phase with
  | idle =>
    cases hq : s.pending with
    | false =>
      rw [afterCycle_idle hq hphase]
      simp [LinesInv, ruleEarly, hphase, hlatch, hclk]
    | true =>
      rw [afterCycle_service ⟨hq, hphase⟩]
      simp [LinesInv, ruleEarly, hphase, hlatch, hclk]
  | setup =>
    rw [afterCycle_setup hphase]
    simp [LinesInv, ruleEarly, hphase, hlatch]
  | clkhi =>
    by_cases hn : s.bitcnt = 15
    · rw [afterCycle_clkhi_last hphase hn]
      simp [LinesInv, ruleEarly, hphase, hlatch, hn]
    · rw [afterCycle_clkhi hphase hn]
      have hsucc : ¬ s.bitcnt + 1#4 = 0#4 := by bv_omega
      simp [LinesInv, ruleEarly, hphase, hlatch, hsucc]
  | latlo =>
    rw [afterCycle_latlo hphase]
    simp [LinesInv, ruleEarly, hlast (.inl hphase)]
  | lathi =>
    rw [afterCycle_lathi hphase]
    simp [LinesInv, ruleEarly, hphase, hclk]
  | reserved5 => exact absurd hphase h5
  | reserved6 => exact absurd hphase h6
  | reserved7 => exact absurd hphase h7

/-- R132: the low byte of a service frame is the slot's select byte. -/
theorem serviceFrame_selectByte (s : State) : (serviceFrame s).extractLsb' 0 8 = s.cfg.selTable[s.slot.toFin] :=
  BitVec.extractLsb'_append_eq_right

/-- Outside a service cycle the frame holds, and an idle serializer stays idle. -/
theorem afterCycle_noService {s : State} (h : ¬ (s.pending = true ∧ s.phase = .idle)) :
    (afterCycle s).frame = s.frame ∧ (s.phase = .idle → (afterCycle s).phase = .idle) := by
  unfold afterCycle ruleSer
  (repeat' split) <;> simp_all [ruleEarly]

/-- The frame changes in a service cycle alone, and its select byte there is an entry of the table. -/
theorem selectInv_afterCycle {s : State} (h : SelectInv s) : SelectInv (afterCycle s) := by
  intro hbusy
  rw [afterCycle_cfg]
  by_cases hservice : s.pending = true ∧ s.phase = .idle
  · rw [afterCycle_service hservice]
    exact ⟨s.slot.toFin, serviceFrame_selectByte s⟩
  · obtain ⟨hframe, hidle⟩ := afterCycle_noService hservice
    rw [hframe]
    exact h (mt hidle hbusy)

/-- A cycle without reset keeps the invariant. -/
theorem inv_afterCycle {s : State} (h : Inv s) : Inv (afterCycle s) := by
  obtain ⟨hrunning, hlines, hchain, hselect⟩ := h
  exact ⟨⟨(afterCycle_resetSeen s).trans hrunning.1, legal_afterCycle hrunning.2⟩, linesInv_afterCycle hrunning.2 hlines,
    chainInv_afterCycle hrunning.2 (clockReady_of_linesInv hlines) hchain, selectInv_afterCycle hselect⟩

/-- A reset cycle brings the invariant about, from any state: it goes to IDLE with the lines at their reset levels. -/
theorem inv_receive_resetBlock (s : State) : Inv (Ops.receive s (Ops.resetBlock s)) := by
  simp [Safety.Inv, Running, Legal, LinesInv, ChainInv, SelectInv, bitsShifted]

theorem inv_sampled {s : State} : Inv (Cycle.sampled s) ↔ Inv s := by
  obtain ⟨inp, rest, n, h⟩ := sampled_registers s
  rw [h]
  exact Iff.rfl

/-- Settles O52: a call holds the registers, a reset brings the invariant about, and every phase keeps it. -/
theorem everyStepKeepsTheInvariant : Obligations.EveryStepKeepsTheInvariant := by
  intro s t hinv hstep
  obtain ⟨-, r, rest, rfl⟩ | ⟨-, -, rfl⟩ | ⟨-, -, -, -, rfl⟩ := step_next_cases hstep
  · exact hinv
  · exact inv_receive_resetBlock _
  · exact inv_afterCycle (inv_sampled.2 hinv)

/-- Settles O51: in IDLE no bit is shifted and no transfer is in progress. -/
theorem invariantHoldsAtReset : Obligations.InvariantHoldsAtReset := by
  have hphase : State.reset.phase = .idle := rfl
  refine ⟨⟨rfl, by decide⟩, by decide, fun j hj => ?_, fun hbusy => absurd hphase hbusy⟩
  exact absurd hj (by simp [bitsShifted, hphase])

/-- R47, R58: under the invariant a latch edge finds the whole frame in the chain. -/
theorem chain_eq_frame_of_latch_low {s : State} (h : Inv s) (hlatch : s.outLatch = false) :
    s.phase = .lathi ∧ s.chain = s.frame := by
  obtain ⟨-, ⟨hlines, -⟩, hchain, -⟩ := h
  have hphase : s.phase = .lathi := by simpa [hlatch] using hlines
  exact ⟨hphase, chain_eq_frame hchain (bitsShifted_eq_sixteen (.inr hphase))⟩

/-- R97: a word whose low byte is an entry of an accepted table enables that entry's digit alone. -/
theorem enablesOnly_of_selectByte {cfg : Config.Params} {o : BitVec 16} {p : Fin 4} (htable : TableAccepted cfg)
    (h : o.extractLsb' 0 8 = cfg.selTable[p]) : enablesOnly cfg o p := by
  intro q
  have hbit := htable.2 p q
  rw [← h, BitVec.getLsbD_extractLsb', Nat.zero_add] at hbit
  simpa [show cfg.enableBit[q.val].toNat < 8 from BitVec.isLt _] using hbit

/-- Settles O54: outputs change on a rise of the latch line, which under the invariant was low in LATHI alone. -/
theorem outputsChangeToWholeFrames : Obligations.OutputsChangeToWholeFrames := by
  intro s t hinv hstep hchange
  obtain ⟨-, -, hrise, hhold, -⟩ := receiverFollowsTheLines s t hstep
  obtain ⟨hlow, hhigh⟩ : s.outLatch = false ∧ t.outLatch = true := by_contra fun h => hchange (hhold h)
  obtain ⟨hphase, hchain⟩ := chain_eq_frame_of_latch_low hinv hlow
  have hout : t.outReg = s.frame := (hrise ⟨hlow, hhigh⟩).trans hchain
  refine ⟨hphase, hout, hhigh, fun htable => ?_⟩
  obtain ⟨-, -, -, hselect⟩ := hinv
  obtain ⟨p, hp⟩ := hselect (by simp [hphase])
  exact ⟨p, enablesOnly_of_selectByte htable (hout ▸ hp)⟩

/-- Settles O55: reset lowers the clock line and raises the latch line, which was low in LATHI alone. -/
theorem resetMidTransfer : Obligations.ResetMidTransfer := by
  intro s t hinv hcycle hrst hstep
  obtain ⟨hchainRise, hchainHold, houtRise, houtHold, -⟩ := receiverFollowsTheLines s t hstep
  obtain ⟨u, hu, hreset, -⟩ := sysRstOverridesEverything s hcycle hrst
  cases hu.symm.trans hstep
  have ⟨_, _, _, _, _, _, _, _, hclk, _, hlatch⟩ := hreset
  have hchain : t.chain = s.chain := hchainHold (by simp [hclk])
  have ⟨_, ⟨hlines, _⟩, hchainInv, _⟩ := hinv
  refine ⟨hchain, hreset, fun hphase => houtHold ?_, fun hphase => ?_, fun hphase => ?_⟩
  · obtain hphase | hphase | hphase := hphase <;> simp [hlines, hphase]
  · exact hchain.trans (chain_eq_frame hchainInv (bitsShifted_eq_sixteen (.inl hphase)))
  · have hlow : s.outLatch = false := by simp [hlines, hphase]
    obtain ⟨-, hframe⟩ := chain_eq_frame_of_latch_low hinv hlow
    exact ⟨(houtRise ⟨hlow, hlatch⟩).trans hframe, hchain.trans hframe⟩

end Sys2Proof.Machine

/-! ### Runs of cycles without reset -/

namespace Sys2Proof.Machine

open Sys2Proof.Safety

/-- The block runs, its table is accepted, and the queue begins with cycles without reset. -/
structure RunsOn (s : State) (ws : List StimWord) (rest : List Stimulus) : Prop where
  running : Running s
  table : TableAccepted s.cfg
  queue : feeds s ws rest
  noReset : noReset ws

/-- The first of the cycles answers, with its word on the ports, and the block runs on. -/
theorem RunsOn.step {s : State} {w : StimWord} {ws : List StimWord} {rest : List Stimulus}
    (h : RunsOn s (w :: ws) rest) :
    nextIsCycle s = true ∧ (Cycle.sampled s).inp = Ops.ports w ∧
      Machine.step s = .next (afterCycle (Cycle.sampled s)) ∧ RunsOn (afterCycle (Cycle.sampled s)) ws rest := by
  obtain ⟨hrunning, htable, hqueue, hreset⟩ := h
  obtain ⟨hresetHead, hresetTail⟩ := List.forall_mem_cons.1 hreset
  obtain ⟨hcycle, hsampled⟩ := feeds_cons hqueue
  have hinp : (Cycle.sampled s).inp = Ops.ports w := by rw [hsampled]
  have hrst : (Cycle.sampled s).inp.sysRst = false := by rw [hinp]; exact hresetHead
  have hstep : Machine.step s = .next (afterCycle (Cycle.sampled s)) := by
    rw [step_cycle hcycle]
    exact clock_running hrst (running_sampled.2 hrunning) fun _ => by rwa [sampled_cfg]
  refine ⟨hcycle, hinp, hstep, ?_, ?_, feeds_tail hqueue hstep, hresetTail⟩
  · obtain ⟨hkeeps, -⟩ := everyStepKeepsLegality s _ hstep
    exact hkeeps hrunning
  · rwa [step_cfg hstep]

/-- A property of the number of cycles run and the state they lead to, kept by every cycle, holds along the run. -/
theorem RunsOn.run {P : Nat → State → Prop} {s : State} {ws : List StimWord} {rest : List Stimulus}
    (h : RunsOn s ws rest) (hstart : P 0 s)
    (hkeeps : ∀ k u, ∀ w ∈ ws, Running u → (Cycle.sampled u).inp = Ops.ports w → P k u →
      P (k + 1) (afterCycle (Cycle.sampled u))) :
    ∀ n ≤ ws.length, ∃ t : State, Host.Core.run core n s = .next t ∧ P n t ∧ RunsOn t (ws.drop n) rest := by
  intro n
  induction n with
  | zero => exact fun _ => ⟨s, rfl, hstart, h⟩
  | succ n ih =>
    intro hn
    obtain ⟨t, hrun, hp, hon⟩ := ih (by omega)
    rw [List.drop_eq_getElem_cons (by omega)] at hon
    obtain ⟨-, hinp, hstep, hnext⟩ := hon.step
    exact ⟨_, by rw [run_add 1 hrun, run_succ 0 hstep]; rfl,
      hkeeps n t _ (List.getElem_mem _) hon.running hinp hp, hnext⟩

/-- R163, R22: a second tick without a press counts modulo 6000. -/
theorem ruleTime_tick {s : State} (h : s.timeValue.toNat ≤ 5999) (hrst : s.inp.sysRst = false)
    (hbtn : s.inp.rstBtnN = true) (htick : s.inp.secTick = true) : ruleTime s = (s.timeValue.toNat + 1) % 6000 := by
  rw [ruleTime, if_neg (by simp [hrst]), if_neg (by simp [hbtn]), if_pos htick]
  split <;> omega

/-- Settles O36, by induction over the cycles. -/
theorem heldSecondTickCountsEveryCycle : Obligations.HeldSecondTickCountsEveryCycle := by
  intro s ws rest hrunning htable hfeeds hreset hticks
  have hon : RunsOn s ws rest := ⟨hrunning, htable, hfeeds, hreset⟩
  have hcounts : ∀ k u, ∀ w ∈ ws, Running u → (Cycle.sampled u).inp = Ops.ports w →
      u.timeValue.toNat = (s.timeValue.toNat + k) % 6000 →
      (afterCycle (Cycle.sampled u)).timeValue.toNat = (s.timeValue.toNat + (k + 1)) % 6000 := by
    intro k u w hw hrunning hinp htime
    obtain ⟨htick, hbtn⟩ := hticks w hw
    have hrule := ruleTime_tick (s := Cycle.sampled u) (by rw [sampled_timeValue]; exact hrunning.2.1)
      (by rw [hinp]; exact hreset w hw) (by rw [hinp]; exact hbtn) (by rw [hinp]; exact htick)
    rw [afterCycle_timeValue, hrule, sampled_timeValue, htime, BitVec.toNat_ofNat]
    omega
  have hstart : s.timeValue.toNat = (s.timeValue.toNat + 0) % 6000 :=
    (Nat.mod_eq_of_lt (Nat.lt_succ_of_le hrunning.2.1)).symm
  obtain ⟨t, hrun, htime, -⟩ := hon.run hstart hcounts ws.length le_rfl
  exact ⟨t, hrun, htime⟩

end Sys2Proof.Machine

/-! ### One transfer (41_serializer.md R112 to R118, 60_exceptions.md R199) -/

namespace Sys2Proof.Machine

open Sys2Proof.Safety

/-- How many cycles of its transfer a busy serializer has behind it, the service cycle included (41_serializer.md R117). -/
def progress (s : State) : Nat :=
  match s.phase with
  | .setup => 2 * s.bitcnt.toNat + 1
  | .clkhi => 2 * s.bitcnt.toNat + 2
  | .latlo => 33
  | .lathi => 34
  | .idle | .reserved5 | .reserved6 | .reserved7 => 0

section progress

variable {s : State}

theorem progress_setup (h : s.phase = .setup) : progress s = 2 * s.bitcnt.toNat + 1 := by simp [progress, h]
theorem progress_clkhi (h : s.phase = .clkhi) : progress s = 2 * s.bitcnt.toNat + 2 := by simp [progress, h]
theorem progress_latlo (h : s.phase = .latlo) : progress s = 33 := by simp [progress, h]
theorem progress_lathi (h : s.phase = .lathi) : progress s = 34 := by simp [progress, h]
theorem progress_idle (h : s.phase = .idle) : progress s = 0 := by simp [progress, h]

/-- A transfer in progress is in one of the four busy phases. -/
theorem busy_of_progress_pos (h : 0 < progress s) :
    s.phase = .setup ∨ s.phase = .clkhi ∨ s.phase = .latlo ∨ s.phase = .lathi := by
  cases hphase : s.phase <;> simp_all [progress]

theorem phase_lathi_of_progress (h : progress s = 34) : s.phase = .lathi := by
  have hn := s.bitcnt.isLt
  obtain hphase | hphase | hphase | hphase := busy_of_progress_pos (s := s) (by omega)
  · rw [progress_setup hphase] at h
    omega
  · rw [progress_clkhi hphase] at h
    omega
  · rw [progress_latlo hphase] at h
    omega
  · exact hphase

/-- The even cycles of a transfer but the last are the CLKHI of its bits. -/
theorem clkhi_of_progress {i : Nat} (hi : i < 16) (h : progress s = 2 * i + 2) :
    s.phase = .clkhi ∧ s.bitcnt.toNat = i := by
  obtain hphase | hphase | hphase | hphase := busy_of_progress_pos (s := s) (by omega)
  · rw [progress_setup hphase] at h
    omega
  · rw [progress_clkhi hphase] at h
    exact ⟨hphase, by omega⟩
  · rw [progress_latlo hphase] at h
    omega
  · rw [progress_lathi hphase] at h
    omega

/-- A transfer moves on by one in every cycle without reset. -/
theorem progress_afterCycle (hpos : 0 < progress s) (hlt : progress s < 34) :
    progress (afterCycle s) = progress s + 1 := by
  obtain hphase | hphase | hphase | hphase := busy_of_progress_pos hpos
  · rw [afterCycle_setup hphase, progress_clkhi rfl, progress_setup hphase]
    rfl
  · rw [progress_clkhi hphase]
    by_cases hn : s.bitcnt = 15
    · rw [afterCycle_clkhi_last hphase hn, progress_latlo rfl, hn]
      rfl
    · rw [afterCycle_clkhi hphase hn, progress_setup rfl]
      have hsucc : (s.bitcnt + 1).toNat = s.bitcnt.toNat + 1 := by bv_omega
      rw [receive_bitcnt, hsucc]
      omega
  · rw [afterCycle_latlo hphase, progress_lathi rfl, progress_latlo hphase]
  · rw [progress_lathi hphase] at hlt
    omega

theorem progress_service (h : s.pending = true ∧ s.phase = .idle) : progress (afterCycle s) = 1 := by
  rw [afterCycle_service h, progress_setup rfl]
  rfl

theorem idle_afterCycle (hq : s.pending = false) (h : s.phase = .idle) : (afterCycle s).phase = .idle := by
  rw [afterCycle_idle hq h, receive_phase]
  exact h

theorem idle_afterCycle_lathi (h : s.phase = .lathi) : (afterCycle s).phase = .idle := by
  rw [afterCycle_lathi h, receive_phase]

theorem progress_sampled : progress (Cycle.sampled s) = progress s := by
  rw [progress, progress, sampled_phase, sampled_bitcnt]

end progress

/-- A transfer of the frame `f`, `n` cycles after its service, with the slot at `p`: the chain holds the bits shifted so far,
and the lines hold what the cycles to come need of them. -/
structure Transfer (f : BitVec 16) (p : BitVec 2) (n : Nat) (s : State) : Prop where
  progress_eq : progress s = n
  frame_eq : s.frame = f
  slot_eq : s.slot = p
  clockReady : ClockReady s
  lastBit : s.phase = .latlo ∨ s.phase = .lathi → s.bitcnt = 15 ∧ s.outData = f.getLsbD 0
  linesLow : s.phase = .lathi → s.outClk = false ∧ s.outLatch = false
  chain : ChainInv s

/-- A transfer of the frame `f` at its end (60_exceptions.md R199). -/
structure Delivered (f : BitVec 16) (p : BitVec 2) (s : State) : Prop where
  chain_eq : s.chain = f
  outReg_eq : s.outReg = f
  phase_eq : s.phase = .idle
  bitcnt_eq : s.bitcnt = 15
  frame_eq : s.frame = f
  slot_eq : s.slot = p
  outClk_eq : s.outClk = false
  outLatch_eq : s.outLatch = true
  outData_eq : s.outData = f.getLsbD 0

section transfer

variable {f : BitVec 16} {p : BitVec 2} {n : Nat} {s : State}

theorem Transfer.sampled (h : Transfer f p n s) : Transfer f p n (Cycle.sampled s) := by
  obtain ⟨inp, rest, k, hs⟩ := sampled_registers s
  rw [hs]
  exact ⟨h.progress_eq, h.frame_eq, h.slot_eq, h.clockReady, h.lastBit, h.linesLow, h.chain⟩

/-- R112: a service starts a transfer, whatever the lines and the chain held. -/
theorem transfer_service (h : s.pending = true ∧ s.phase = .idle) :
    Transfer (serviceFrame s) (s.slot + 1) 1 (afterCycle s) := by
  have hprogress := progress_service h
  rw [afterCycle_service h] at hprogress ⊢
  exact ⟨hprogress, rfl, rfl, nofun, nofun, nofun, fun j hj => absurd hj (Nat.not_lt_zero _)⟩

/-- R113 to R115: a transfer goes on, cycle by cycle, until its LATHI. -/
theorem Transfer.next (h : Transfer f p n s) (hlegal : Legal s) (hpos : 0 < n) (hlt : n < 34) :
    Transfer f p (n + 1) (afterCycle s) := by
  obtain ⟨rfl, rfl, rfl, hready, hlast, hlow, hchain⟩ := h
  have hprogress := progress_afterCycle hpos hlt
  have hchain' := chainInv_afterCycle hlegal hready hchain
  obtain hphase | hphase | hphase | hphase := busy_of_progress_pos hpos
  · rw [afterCycle_setup hphase] at hprogress hchain' ⊢
    exact ⟨hprogress, rfl, rfl, fun _ => ⟨rfl, rfl⟩, nofun, nofun, hchain'⟩
  · obtain ⟨-, hdata⟩ := hready hphase
    by_cases hn : s.bitcnt = 15
    · rw [afterCycle_clkhi_last hphase hn] at hprogress hchain' ⊢
      exact ⟨hprogress, rfl, rfl, nofun, fun _ => ⟨hn, by simpa [ruleEarly, hn] using hdata⟩, nofun, hchain'⟩
    · rw [afterCycle_clkhi hphase hn] at hprogress hchain' ⊢
      exact ⟨hprogress, rfl, rfl, nofun, nofun, nofun, hchain'⟩
  · rw [afterCycle_latlo hphase] at hprogress hchain' ⊢
    exact ⟨hprogress, rfl, rfl, nofun, fun _ => hlast (.inl hphase), fun _ => ⟨rfl, rfl⟩, hchain'⟩
  · rw [progress_lathi hphase] at hlt
    omega

/-- R116, R199: LATHI latches the chain, which has taken the whole frame. -/
theorem Transfer.delivers (h : Transfer f p 34 s) : Delivered f p (afterCycle s) := by
  obtain ⟨hprogress, rfl, rfl, -, hlast, hlow, hchain⟩ := h
  have hphase := phase_lathi_of_progress hprogress
  obtain ⟨hn, hdata⟩ := hlast (.inr hphase)
  obtain ⟨hclk, hlatch⟩ := hlow hphase
  have hwhole : s.chain = s.frame := chain_eq_frame hchain (bitsShifted_eq_sixteen (.inr hphase))
  rw [afterCycle_lathi hphase]
  refine ⟨?_, ?_, rfl, hn, rfl, rfl, hclk, rfl, hdata⟩
  · rw [receive_chain, if_neg (by simp [ruleEarly, hclk]), hwhole]
  · rw [receive_outReg, if_pos ⟨hlatch, rfl⟩, hwhole]

/-- The `k`-th cycle after the service cycle: the transfer is on, or, after the last of its cycles, at its end. -/
def TransferAt (f : BitVec 16) (p : BitVec 2) (k : Nat) (s : State) : Prop :=
  (k < 34 → Transfer f p (k + 1) s) ∧ (k = 34 → Delivered f p s)

theorem TransferAt.next (h : TransferAt f p n s) (hrunning : Running s) :
    TransferAt f p (n + 1) (afterCycle (Cycle.sampled s)) := by
  obtain ⟨hbusy, -⟩ := h
  refine ⟨fun hlt => ?_, fun hlast => ?_⟩
  · exact (hbusy (by omega)).sampled.next (legal_sampled.2 hrunning.2) (by omega) hlt
  · cases hlast
    exact (hbusy (by omega)).sampled.delivers

end transfer

/-- A run of a service cycle and `n` more cycles without reset: the transfer of the service frame, and its end. -/
theorem RunsOn.transfer {s : State} {ws : List StimWord} {rest : List Stimulus} {n : Nat} (h : RunsOn s ws rest)
    (hservice : s.pending = true ∧ s.phase = .idle) (hn : n < ws.length) :
    ∃ t : State, Host.Core.run core (n + 1) s = .next t ∧ RunsOn t (ws.drop (n + 1)) rest ∧
      TransferAt (serviceFrame (Cycle.sampled s)) (s.slot + 1) n t := by
  obtain _ | ⟨w, ws⟩ := ws
  · cases hn
  obtain ⟨-, -, hstep, hon⟩ := h.step
  have hstart := transfer_service (s := Cycle.sampled s) (by rwa [sampled_pending, sampled_phase])
  rw [sampled_slot] at hstart
  obtain ⟨t, hrun, hend, hon'⟩ := hon.run (P := TransferAt (serviceFrame (Cycle.sampled s)) (s.slot + 1))
    ⟨fun _ => hstart, nofun⟩ (fun _ _ _ _ hrunning _ hat => hat.next hrunning) n (Nat.lt_succ_iff.1 hn)
  exact ⟨t, (run_succ n hstep).trans hrun, hon', hend⟩

/-- Settles O45: the transfer is busy for its 34 cycles, and idle after its last. -/
theorem servicesAreThirtyFiveApart : Obligations.ServicesAreThirtyFiveApart := by
  intro s ws rest k hrunning htable hq hidle hfeeds hreset hk
  have hon : RunsOn s ws rest := ⟨hrunning, htable, hfeeds, hreset⟩
  obtain ⟨t, hrun, -, hbusy, hend⟩ := hon.transfer ⟨hq, hidle⟩ hk
  refine ⟨t, hrun, fun hlt hphase => ?_, fun hlast => (hend hlast).phase_eq⟩
  have hprogress := (hbusy hlt).progress_eq
  rw [progress_idle hphase] at hprogress
  omega

/-- R114: the CLKHI of a bit raises the clock line over the bit's data. -/
theorem afterCycle_clkhi_lines {s : State} (h : s.phase = .clkhi) :
    (afterCycle s).outClk = true ∧ (afterCycle s).outData = s.outData := by
  by_cases hn : s.bitcnt = 15
  · rw [afterCycle_clkhi_last h hn]
    exact ⟨rfl, rfl⟩
  · rw [afterCycle_clkhi h hn]
    exact ⟨rfl, rfl⟩

/-- Settles O48: 2i + 2 cycles into the transfer is the CLKHI of bit i, and the cycle after raises the clock. -/
theorem transferTimeline : Obligations.TransferTimeline := by
  intro s ws rest i hrunning htable hq hidle hfeeds hreset hlen hi
  have hon : RunsOn s ws rest := ⟨hrunning, htable, hfeeds, hreset⟩
  obtain ⟨t, hrun, hon', hbusy, -⟩ := hon.transfer (n := 2 * i + 1) ⟨hq, hidle⟩ (by omega)
  obtain ⟨hprogress, hframe, -, hready, -⟩ := hbusy (by omega)
  obtain ⟨hphase, hn⟩ := clkhi_of_progress hi hprogress
  obtain ⟨hclk, hdata⟩ := hready hphase
  rw [hframe, hn] at hdata
  rw [List.drop_eq_getElem_cons (by omega)] at hon'
  obtain ⟨-, -, hstep, -⟩ := hon'.step
  obtain ⟨hclk', hdata'⟩ := afterCycle_clkhi_lines (s := Cycle.sampled t) (by rwa [sampled_phase])
  rw [sampled_outData, hdata] at hdata'
  exact ⟨t, _, hrun, hclk, hdata, hphase, hn, (run_add 1 hrun).trans (run_succ 0 hstep), hclk', hdata'⟩

/-- Settles O49: the end of the transfer, with the queue moved by its 35 cycles. -/
theorem transferDeliversTheFrame : Obligations.TransferDeliversTheFrame := by
  intro s ws rest hrunning htable hq hidle hfeeds hreset hlen
  have hon : RunsOn s ws rest := ⟨hrunning, htable, hfeeds, hreset⟩
  obtain ⟨t, hrun, hon', -, hend⟩ := hon.transfer (n := 34) ⟨hq, hidle⟩ (by omega)
  obtain ⟨hchain, hout, hphase, hn, hframe, hslot, hclk, hlatch, hdata⟩ := hend rfl
  rw [List.drop_eq_nil_of_le (by omega)] at hon'
  exact ⟨t, hrun, hchain, hout, hphase, hn, hframe, hslot, hclk, hlatch, hdata, hon'.queue⟩

end Sys2Proof.Machine

/-! ### The pseudo-instruction FRAME (30_encoding.md R82) -/

namespace Sys2Proof.Machine

open Sys2Proof.Safety

/-- Settles O25: the input word stands in bits 4 to 0 of the stimulus word, `mv_in` above it. -/
theorem stimulusWordSetsPorts : Obligations.StimulusWordSetsPorts := by
  intro mv iw
  have hbit : ∀ i < 5, (stimWord mv iw).getLsbD i = iw.getLsbD i := fun i hi => by
    rw [stimWord, BitVec.getLsbD_append, if_pos hi]
  have hmv : (stimWord mv iw).extractLsb' 5 14 = mv := BitVec.extractLsb'_append_eq_left
  rw [Ops.ports, hmv, hbit 0 (by decide), hbit 1 (by decide), hbit 2 (by decide), hbit 3 (by decide),
    hbit 4 (by decide)]

/-- The time holds in a cycle without reset, press and second tick. -/
theorem ruleTime_hold {s : State} (hrst : s.inp.sysRst = false) (hbtn : s.inp.rstBtnN = true)
    (htick : s.inp.secTick = false) : ruleTime s = s.timeValue.toNat := by
  simp [ruleTime, hrst, hbtn, htick]

theorem afterCycle_timeValue_hold {s : State} (hrst : s.inp.sysRst = false) (hbtn : s.inp.rstBtnN = true)
    (htick : s.inp.secTick = false) : (afterCycle s).timeValue = s.timeValue := by
  rw [afterCycle_timeValue, ruleTime_hold hrst hbtn htick, BitVec.ofNat_toNat, BitVec.setWidth_eq]

/-- The ports of a REF cycle: a refresh tick, the buttons released. -/
theorem ports_ref (mv : BitVec 14) : Ops.ports (stimWord mv NamedWord.ref.iw) =
    { sysRst := false, refreshTick := true, secTick := false, rstBtnN := true, modeBtnN := true, mvIn := mv } :=
  stimulusWordSetsPorts mv _

/-- The ports of a NOP cycle: no tick, the buttons released. -/
theorem ports_nop (mv : BitVec 14) : Ops.ports (stimWord mv NamedWord.nop.iw) =
    { sysRst := false, refreshTick := false, secTick := false, rstBtnN := true, modeBtnN := true, mvIn := mv } :=
  stimulusWordSetsPorts mv _

/-- What NOP cycles after a request keep: the time, and that the request is served in the first of them. -/
def RequestServed (tv : BitVec 13) (n : Nat) (s : State) : Prop :=
  s.timeValue = tv ∧ (s.pending = true → s.phase = .idle ∧ n = 0)

theorem requestServed_nop {tv : BitVec 13} {n : Nat} {s : State} {mv : BitVec 14}
    (hinp : s.inp = Ops.ports (stimWord mv NamedWord.nop.iw)) (h : RequestServed tv n s) :
    RequestServed tv (n + 1) (afterCycle s) := by
  obtain ⟨rfl, hpending⟩ := h
  rw [ports_nop] at hinp
  refine ⟨afterCycle_timeValue_hold (by rw [hinp]) (by rw [hinp]) (by rw [hinp]), fun hnext => ?_⟩
  rw [afterCycle_pending, hinp] at hnext
  obtain ⟨hq, hbusy⟩ : s.pending = true ∧ s.phase ≠ .idle := by simpa using hnext
  exact absurd (hpending hq).1 hbusy

/-- A REF cycle of an idle block leaves it idle with a request pending, in Clock mode, and nothing else of a service's
frame changed. -/
theorem afterCycle_ref {s : State} {mv : BitVec 14} (hinp : s.inp = Ops.ports (stimWord mv NamedWord.ref.iw))
    (hq : s.pending = false) (hidle : s.phase = .idle) :
    (afterCycle s).pending = true ∧ (afterCycle s).phase = .idle ∧ (afterCycle s).modeQ = .clock ∧
      (afterCycle s).slot = s.slot ∧ (afterCycle s).timeValue = s.timeValue := by
  rw [ports_ref] at hinp
  have htime := afterCycle_timeValue_hold (s := s) (by rw [hinp]) (by rw [hinp]) (by rw [hinp])
  refine ⟨by rw [afterCycle_pending, hinp, Bool.true_or], idle_afterCycle hq hidle, ?_, ?_, htime⟩
  · rw [afterCycle_idle hq hidle, receive_modeQ, ruleEarly, hinp]
    rfl
  · rw [afterCycle_idle hq hidle]
    rfl

/-- FRAME is one REF cycle and 35 NOP cycles. -/
theorem assembleFrom_frame (mv : BitVec 14) : assembleFrom mv [.frame] =
    stimWord mv NamedWord.ref.iw :: List.replicate 35 (stimWord mv NamedWord.nop.iw) := by
  simp [assembleFrom, StimLine.expand]

theorem noReset_frame (mv : BitVec 14) : noReset (assembleFrom mv [.frame]) := by
  rw [assembleFrom_frame]
  refine List.forall_mem_cons.2 ⟨congrArg Inputs.sysRst (ports_ref mv), fun w hw => ?_⟩
  rw [List.eq_of_mem_replicate hw]
  exact congrArg Inputs.sysRst (ports_nop mv)

/-- Settles O50: REF asks for a service and selects Clock mode, and the 35 NOP cycles are the service and its transfer. -/
theorem framePseudoShowsOneDigit : Obligations.FramePseudoShowsOneDigit := by
  intro s mv rest hrunning htable hq hidle hfeeds
  have hon : RunsOn s (assembleFrom mv [.frame]) rest := ⟨hrunning, htable, hfeeds, noReset_frame mv⟩
  rw [assembleFrom_frame] at hon
  obtain ⟨-, hinp, hstep, hon'⟩ := hon.step
  obtain ⟨hpending, hidle', hmode, hslot, htime⟩ :=
    afterCycle_ref hinp (by rwa [sampled_pending]) (by rwa [sampled_phase])
  rw [sampled_slot] at hslot
  rw [sampled_timeValue] at htime
  obtain ⟨t, hrun, -, -, hend⟩ := hon'.transfer (n := 34) ⟨hpending, hidle'⟩ (by simp)
  obtain ⟨t', hrun', ⟨htime', hserved⟩, -⟩ := hon'.run (P := RequestServed s.timeValue) ⟨htime, fun _ => ⟨hidle', rfl⟩⟩
    (fun k u w hw _ hinp h => requestServed_nop (mv := mv) (by rw [hinp, List.eq_of_mem_replicate hw])
      (by rwa [RequestServed, sampled_timeValue, sampled_pending, sampled_phase])) 35 (by simp)
  cases hrun.symm.trans hrun'
  have hquiet : t.pending = false := Bool.eq_false_iff.2 fun hnext => absurd (hserved hnext).2 (by decide)
  have hframe : serviceFrame (Cycle.sampled (afterCycle (Cycle.sampled s))) = serviceFrame { s with modeQ := .clock } :=
    serviceFrame_congr ((sampled_timeValue _).trans htime) ((sampled_modeQ _).trans hmode)
      ((sampled_slot _).trans hslot) (by simp) (by simp [hmode])
  obtain ⟨-, hout, hphase, -, -, hslot', -⟩ := hend rfl
  exact ⟨t, (run_succ 35 hstep).trans hrun, hphase, hquiet, hslot'.trans (by rw [hslot]), htime', hout.trans hframe⟩

end Sys2Proof.Machine

/-! ### Spaced refresh ticks (70_reset_and_hazards.md R224) -/

namespace Sys2Proof.Machine

open Sys2Proof.Safety

/-- No request is pending, and the serializer is idle or in the last cycle of a transfer. -/
def BetweenServices (s : State) : Prop := s.pending = false ∧ (s.phase = .idle ∨ s.phase = .lathi)

/-- `n` cycles without a refresh tick after a service cycle: no request is pending, and the transfer is on or over. -/
def AfterService (n : Nat) (s : State) : Prop :=
  s.pending = false ∧ (n < 34 ∧ progress s = n + 1 ∨ 34 ≤ n ∧ s.phase = .idle)

/-- A cycle with no tick loses none. -/
theorem tickLost_of_noTick {s : State} (h : s.inp.refreshTick = false) : tickLost s = false := by
  simp [tickLost, h]

theorem serviceCycle_of_noRequest {s : State} (h : s.pending = false) : serviceCycle s = false := by
  simp [serviceCycle, h]

/-- A cycle with no tick and no request pending leaves none pending. -/
theorem AfterService.next {n : Nat} {s : State} (htick : s.inp.refreshTick = false) (h : AfterService n s) :
    AfterService (n + 1) (afterCycle s) := by
  obtain ⟨hq, hphase⟩ := h
  refine ⟨by rw [afterCycle_pending, htick, hq]; rfl, ?_⟩
  obtain ⟨hlt, hprogress⟩ | ⟨hle, hidle⟩ := hphase
  · by_cases hlast : n = 33
    · exact .inr ⟨by omega, idle_afterCycle_lathi (phase_lathi_of_progress (by omega))⟩
    · exact .inl ⟨by omega, by rw [progress_afterCycle (by omega) (by omega), hprogress]⟩
  · exact .inr ⟨by omega, idle_afterCycle hq hidle⟩

theorem afterService_betweenServices {n : Nat} {s : State} (hn : 33 ≤ n) (h : AfterService n s) : BetweenServices s := by
  obtain ⟨hq, ⟨hlt, hprogress⟩ | ⟨-, hidle⟩⟩ := h
  · exact ⟨hq, .inr (phase_lathi_of_progress (by omega))⟩
  · exact ⟨hq, .inl hidle⟩

/-- The cycle of a tick between services: no tick is lost, nothing is served, and the request waits in IDLE. -/
theorem BetweenServices.tick {s : State} (htick : s.inp.refreshTick = true) (h : BetweenServices s) :
    (afterCycle s).pending = true ∧ (afterCycle s).phase = .idle := by
  obtain ⟨hq, hidle | hlathi⟩ := h
  · exact ⟨by rw [afterCycle_pending, htick]; rfl, idle_afterCycle hq hidle⟩
  · exact ⟨by rw [afterCycle_pending, htick]; rfl, idle_afterCycle_lathi hlathi⟩

/-- A service cycle with no tick leaves no request pending and starts a transfer. -/
theorem afterService_service {s : State} (htick : s.inp.refreshTick = false)
    (hservice : s.pending = true ∧ s.phase = .idle) : AfterService 0 (afterCycle s) :=
  ⟨by rw [afterCycle_pending, htick]; simp [hservice], .inl ⟨by omega, progress_service hservice⟩⟩

/-- A run of `n` steps from `s` to `t` that loses `lost` ticks and has `served` service cycles. -/
structure Course (s : State) (n lost served : Nat) (t : State) : Prop where
  run_eq : Host.Core.run core n s = .next t
  lost_eq : countCycles tickLost n s = lost
  served_eq : countCycles serviceCycle n s = served

theorem Course.refl (s : State) : Course s 0 0 0 s := ⟨rfl, rfl, rfl⟩

/-- The step before a course, with its own part of each count. -/
theorem Course.cons {s u t : State} {n lost served : Nat} (hstep : step s = .next u) (h : Course u n lost served t) :
    Course s (n + 1) (cycleCount tickLost s + lost) (cycleCount serviceCycle s + served) t :=
  ⟨(run_succ n hstep).trans h.run_eq, by rw [countCycles_step hstep, h.lost_eq],
    by rw [countCycles_step hstep, h.served_eq]⟩

/-- Courses add up. -/
theorem Course.append {s u t : State} {m n lost lost' served served' : Nat} (h : Course s m lost served u)
    (h' : Course u n lost' served' t) : Course s (m + n) (lost + lost') (served + served') t := by
  induction m generalizing s lost served with
  | zero =>
    obtain ⟨hrun, rfl, rfl⟩ := h
    cases hrun
    simpa [countCycles] using h'
  | succ m ih =>
    obtain ⟨hrun, rfl, rfl⟩ := h
    obtain ⟨v, hstep, hrest⟩ := run_succ_inv hrun
    have hcourse := (ih ⟨hrest, rfl, rfl⟩).cons hstep
    rw [countCycles_step hstep, countCycles_step hstep, Nat.add_right_comm, Nat.add_assoc (cycleCount tickLost s),
      Nat.add_assoc (cycleCount serviceCycle s)]
    exact hcourse

section runsOn

variable {s t : State} {w : StimWord} {ws vs : List StimWord} {rest : List Stimulus} {n : Nat}

/-- A cycle that loses no tick before a course that loses none. -/
theorem RunsOn.course_cons {served : Nat} (h : RunsOn s (w :: ws) rest) (hlost : tickLost (Cycle.sampled s) = false)
    (hcourse : Course (afterCycle (Cycle.sampled s)) n 0 served t) :
    Course s (n + 1) 0 ((if serviceCycle (Cycle.sampled s) then 1 else 0) + served) t := by
  obtain ⟨hcycle, -, hstep, -⟩ := h.step
  simpa [cycleCount_cycle _ hcycle, hlost] using hcourse.cons hstep

theorem afterService_sampled : AfterService n (Cycle.sampled s) ↔ AfterService n s := by
  rw [AfterService, AfterService, sampled_pending, progress_sampled, sampled_phase]

/-- Cycles without a tick after a service lose no tick and serve nothing. -/
theorem RunsOn.quiet (h : RunsOn s (ws ++ vs) rest) (hticks : ∀ w ∈ ws, w.getLsbD 3 = false) (hafter : AfterService n s) :
    ∃ t, Course s ws.length 0 0 t ∧ RunsOn t vs rest ∧ AfterService (n + ws.length) t := by
  induction ws generalizing n s with
  | nil => exact ⟨s, .refl s, h, hafter⟩
  | cons w ws ih =>
    obtain ⟨htickHead, htickTail⟩ := List.forall_mem_cons.1 hticks
    obtain ⟨-, hinp, -, hon⟩ := h.step
    have htick : (Cycle.sampled s).inp.refreshTick = false := by rw [hinp]; exact htickHead
    obtain ⟨t, hcourse, hend, hafter'⟩ := ih hon htickTail ((afterService_sampled.2 hafter).next htick)
    have hservice : serviceCycle (Cycle.sampled s) = false :=
      serviceCycle_of_noRequest ((sampled_pending s).trans hafter.1)
    refine ⟨t, ?_, hend, by rwa [List.length_cons, Nat.add_comm ws.length, ← Nat.add_assoc]⟩
    simpa [hservice] using h.course_cons (tickLost_of_noTick htick) hcourse

/-- A service cycle and cycles after it, all without a tick, lose no tick and have the one service. -/
theorem RunsOn.served (h : RunsOn s (w :: ws ++ vs) rest) (hticks : ∀ w' ∈ w :: ws, w'.getLsbD 3 = false)
    (hservice : s.pending = true ∧ s.phase = .idle) :
    ∃ t, Course s (w :: ws).length 0 1 t ∧ RunsOn t vs rest ∧ AfterService ws.length t := by
  obtain ⟨htickHead, htickTail⟩ := List.forall_mem_cons.1 hticks
  obtain ⟨-, hinp, -, hon⟩ := h.step
  have htick : (Cycle.sampled s).inp.refreshTick = false := by rw [hinp]; exact htickHead
  have hrst : (Cycle.sampled s).inp.sysRst = false := by rw [hinp]; exact h.noReset w (by simp)
  have hactive : (Cycle.sampled s).pending = true ∧ (Cycle.sampled s).phase = .idle := by
    rwa [sampled_pending, sampled_phase]
  obtain ⟨t, hcourse, hend, hafter⟩ := hon.quiet htickTail (afterService_service htick hactive)
  refine ⟨t, ?_, hend, by rwa [Nat.zero_add] at hafter⟩
  simpa [serviceCycle_iff.2 ⟨hrst, hactive⟩] using h.course_cons (tickLost_of_noTick htick) hcourse

/-- R224: a period of a tick and at least 34 cycles without loses no tick and has one service, its second cycle. -/
theorem RunsOn.period (h : RunsOn s (w :: ws ++ vs) rest) (htick : w.getLsbD 3 = true) (hlen : 34 ≤ ws.length)
    (hticks : ∀ w' ∈ ws, w'.getLsbD 3 = false) (hbetween : BetweenServices s) :
    ∃ t, Course s (w :: ws).length 0 1 t ∧ RunsOn t vs rest ∧ BetweenServices t := by
  obtain _ | ⟨w', ws⟩ := ws
  · simp at hlen
  obtain ⟨-, hinp, -, hon⟩ := h.step
  have hrst : (Cycle.sampled s).inp.sysRst = false := by rw [hinp]; exact h.noReset w (by simp)
  have hquiet : (Cycle.sampled s).pending = false := (sampled_pending s).trans hbetween.1
  have hlost : tickLost (Cycle.sampled s) = false := by rw [tickLost, hrst, hquiet]; simp
  have hrequest := BetweenServices.tick (s := Cycle.sampled s) (by rw [hinp]; exact htick)
    (by rwa [BetweenServices, sampled_pending, sampled_phase])
  obtain ⟨t, hcourse, hend, hafter⟩ := hon.served hticks hrequest
  refine ⟨t, ?_, hend, afterService_betweenServices (Nat.le_of_succ_le_succ hlen) hafter⟩
  simpa [serviceCycle_of_noRequest hquiet] using h.course_cons hlost hcourse

end runsOn

/-- Periods of a tick and at least 34 cycles without, run between services: no tick is lost, and each has its service. -/
theorem RunsOn.periods {s : State} {ps : List (StimWord × List StimWord)} {rest : List Stimulus}
    (h : RunsOn s (ps.flatMap fun p => p.1 :: p.2) rest) (hbetween : BetweenServices s)
    (hps : ∀ p ∈ ps, p.1.getLsbD 3 = true ∧ 34 ≤ p.2.length ∧ ∀ w ∈ p.2, w.getLsbD 3 = false) :
    ∃ t, Course s (ps.flatMap fun p => p.1 :: p.2).length 0 ps.length t := by
  induction ps generalizing s with
  | nil => exact ⟨s, .refl s⟩
  | cons p ps ih =>
    obtain ⟨⟨htick, hlen, hticks⟩, htail⟩ := List.forall_mem_cons.1 hps
    obtain ⟨u, hcourse, hon, hbetween'⟩ := h.period htick hlen hticks hbetween
    obtain ⟨t, hcourse'⟩ := ih hon hbetween' htail
    rw [List.flatMap_cons, List.length_append, List.length_cons (as := ps), Nat.add_comm ps.length]
    exact ⟨t, hcourse.append hcourse'⟩

/-- Settles O46: an idle block with no request pending is between services. -/
theorem spacedTicksAreNeverLost : Obligations.SpacedTicksAreNeverLost := by
  intro s ps rest hrunning htable hq hidle hfeeds hreset hps
  have hon : RunsOn s (ps.flatMap fun p => p.1 :: p.2) rest := ⟨hrunning, htable, hfeeds, hreset⟩
  obtain ⟨t, -, hlost, hserved⟩ := hon.periods ⟨hq, .inl hidle⟩ hps
  exact ⟨hlost, hserved⟩

end Sys2Proof.Machine

/-! ### The operations of the block on their own (41_serializer.md, 42_multiplexer.md, 43_timebase_mode.md) -/

namespace Sys2Proof.Machine

open Sys2Proof.Safety

/-- Settles O6: SYS_RESET asks nothing of the state it runs on. -/
theorem sysResetCompletes : Obligations.SysResetCompletes := exec_sysReset

/-- Settles O30: the table of reset values is a closed fact of `State.reset`. -/
theorem resetStateIsTheTable : Obligations.ResetStateIsTheTable :=
  ⟨⟨rfl, rfl, rfl, rfl, rfl, rfl, rfl, rfl, rfl, rfl, rfl⟩, rfl⟩

/-- Settles O7, operation by operation. -/
theorem timebaseOperationsComplete : Obligations.TimebaseOperationsComplete := fun s h =>
  ⟨exec_rstEdge h, exec_modeSample h, exec_tbReset h, by rw [exec_tbTick h, Operands.tickTime_eq]⟩

/-- Settles O8: the expression is `Flags.nextPending`. -/
theorem refreshRequestCompletes : Obligations.RefreshRequestCompletes := fun _ h => exec_refreshReq h

/-- Settles O9: the chained functions answer the slot map's digit, and SELECT of an accepted table answers. -/
theorem muxServiceCompletes : Obligations.MuxServiceCompletes := fun _ h htable => exec_muxService h htable

/-- Settles O10, operation by operation. -/
theorem serializerOperationsComplete : Obligations.SerializerOperationsComplete := fun _ h =>
  ⟨exec_serIdle h, exec_serSetup h, exec_serClkhi_last h, exec_serClkhi h, exec_serLatlo h, exec_serLathi h,
    exec_serStart h⟩

/-- A cycle of a reserved phase stops, also in a state that holds none. -/
theorem reservedPhase_fault (s : State) :
    Ops.reservedPhase s = .fault (if s.resetSeen then .unreachableState else .unreset) := by
  unfold Ops.reservedPhase
  cases hseen : s.resetSeen with
  | false => exact operate_unreset hseen _
  | true =>
    by_cases hlegal : Legal s
    · exact operate_running ⟨hseen, hlegal⟩ _
    · exact operate_illegal hseen hlegal _

/-- Settles O11: the three rows share one meaning. -/
theorem reservedPhasesStop : Obligations.ReservedPhasesStop := by
  intro s i hi
  obtain rfl | rfl | rfl : i = .reservedPhase5 ∨ i = .reservedPhase6 ∨ i = .reservedPhase7 := by simpa using hi
  all_goals exact reservedPhase_fault s

end Sys2Proof.Machine

/-! ### The combinational functions on their own (40_encoder_selector.md, 42_multiplexer.md section 3) -/

namespace Sys2Proof.Machine

open Sys2Proof.Safety

theorem exec_encode (d : BitVec 4) (sup : Bool) (s : State) :
    exec (.encode d sup) s = .next { s with result := .byte (Operands.encodeByte s.cfg d sup) } := rfl

theorem exec_voltDigits (slot : BitVec 2) (mv : BitVec 14) (s : State) : exec (.voltDigits slot mv) s =
    .next { s with result := .digit (Operands.voltDigit slot mv).1 (Operands.voltDigit slot mv).2 } := rfl

theorem exec_clockDigits {tv : BitVec 13} (h : tv.toNat ≤ 5999) (slot : BitVec 2) (s : State) :
    exec (.clockDigits slot tv) s =
      .next { s with result := .digit (Operands.clockDigit slot tv).1 (Operands.clockDigit slot tv).2 } :=
  if_neg (Nat.not_lt.2 h)

theorem exec_clockDigits_above {tv : BitVec 13} (h : 5999 < tv.toNat) (slot : BitVec 2) (s : State) :
    exec (.clockDigits slot tv) s = .fault .unreachableState :=
  if_pos h

theorem exec_select {s : State} (h : TableAccepted s.cfg) (p : BitVec 2) :
    exec (.select p) s = .next { s with result := .byte s.cfg.selTable[p.toFin] } := by
  rw [exec, execSelect, Operands.selectByte_accepted h]
  rfl

theorem exec_select_refused {s : State} (h : ¬ TableAccepted s.cfg) (p : BitVec 2) :
    exec (.select p) s = .refused .selTableRefused := by
  rw [exec, execSelect, Operands.selectByte_refused h]

/-- SELECT answers from accepted tables alone. -/
theorem select_next {s t : State} {p : BitVec 2} (h : exec (.select p) s = .next t) :
    TableAccepted s.cfg ∧ t = { s with result := .byte s.cfg.selTable[p.toFin] } := by
  by_cases htable : TableAccepted s.cfg
  · rw [exec_select htable] at h
    cases h
    exact ⟨htable, rfl⟩
  · rw [exec_select_refused htable] at h
    cases h

/-- CLOCK_DIGITS answers for times in range alone. -/
theorem clockDigits_next {s t : State} {slot : BitVec 2} {tv : BitVec 13} (h : exec (.clockDigits slot tv) s = .next t) :
    tv.toNat ≤ 5999 := by
  by_contra htv
  rw [exec_clockDigits_above (Nat.not_le.1 htv)] at h
  cases h

/-- Settles O12: ENCODE of a digit 0 to 9 is the rule's pattern. -/
theorem encodeCompletes : Obligations.EncodeCompletes := fun s d sup h => by
  rw [exec_encode, Operands.encodeByte_eq _ _ _ h]

/-- R92 on the rule's pattern. -/
theorem pattern_suppressed (cfg : Config.Params) (d : Nat) :
    (pattern cfg d true).getLsbD 7 = cfg.dpForce ∧
      ∀ k < 7, (pattern cfg d true).getLsbD k = (pattern cfg d false).getLsbD k := by
  unfold pattern
  cases cfg.dpForce with
  | false =>
    refine ⟨by simp, fun k hk => ?_⟩
    interval_cases k <;> simp
  | true =>
    refine ⟨by simp, fun k hk => ?_⟩
    interval_cases k <;> simp

/-- Settles O13: both answers are the rule's patterns of one digit. -/
theorem suppressionActsOnBitSeven : Obligations.SuppressionActsOnBitSeven := by
  intro s t u d b c hd ht hb hu hc
  rw [exec_encode, Operands.encodeByte_eq _ _ _ hd] at ht hu
  cases ht
  cases hu
  cases hb
  cases hc
  exact ⟨rfl, pattern_suppressed s.cfg d.toNat⟩

/-- Settles O14: the reserved rows answer the free value, as ENCODE does above 9. -/
theorem reservedEncAnswersFreeValue : Obligations.ReservedEncAnswersFreeValue := fun s d sup =>
  ⟨rfl, rfl, fun hd => by rw [exec_encode, Operands.encodeByte_outside _ _ _ hd]⟩

/-- Settles O15: SELECT answers where the table is accepted. -/
theorem selectCompletesOrRefuses : Obligations.SelectCompletesOrRefuses := fun _ p =>
  ⟨fun h => exec_select h p, fun h => exec_select_refused h p⟩

theorem blank_getLsbD : ∀ k : BitVec 3, (0xFF : Byte).getLsbD k.toNat = true := by decide

/-- Settles O16: the entries of an accepted table, of which one with a bit at 0 is not blank. -/
theorem selectEnablesExactlyOneDigit : Obligations.SelectEnablesExactlyOneDigit := by
  intro s t u p q b c ht hb hu hc
  obtain ⟨⟨hdistinct, henables⟩, rfl⟩ := select_next ht
  obtain ⟨-, rfl⟩ := select_next hu
  cases hb
  cases hc
  refine ⟨fun hpq => hdistinct _ _ fun he => hpq (BitVec.toFin_inj.1 he), fun hblank => ?_, fun r => ?_⟩
  · have hown := henables p.toFin p.toFin
    rw [hblank, blank_getLsbD] at hown
    simp at hown
  · rw [henables p.toFin r.toFin]
    exact decide_eq_decide.2 (not_congr BitVec.toFin_inj)

/-- Settles O17: the slot map's digit and flag, slot by slot. -/
theorem clockDigitsCompletesOrStops : Obligations.ClockDigitsCompletesOrStops := by
  refine fun s slot tv => ⟨fun htv => ?_, fun htv => exec_clockDigits_above htv slot s⟩
  obtain ⟨hdigit, hsup, hle⟩ := Operands.clockDigit_eq slot tv 0 htv
  refine ⟨_, _, exec_clockDigits htv slot s, hle, fun hslot => ?_, fun hslot => ?_, fun hslot => ?_, fun hslot => ?_⟩
  all_goals rw [hslot] at hdigit hsup
  · exact ⟨hdigit, hsup⟩
  · exact ⟨hdigit, hsup⟩
  · have hfive : tv.toNat % 60 / 10 ≤ 5 := by omega
    exact ⟨hdigit, hdigit.trans_le hfive, hsup⟩
  · exact ⟨hdigit, hsup⟩

/-- The answer of VOLT_DIGITS above 9999 (log 9). -/
theorem voltDigit_above {mv : BitVec 14} (h : 9999 < mv.toNat) (slot : BitVec 2) :
    Operands.voltDigit slot mv = (Config.voltDigitOutside slot mv, decide (slot = 0)) :=
  if_neg (Nat.not_le.2 h)

/-- Settles O18: the slot map's digit and flag, slot by slot. -/
theorem voltDigitsCompletes : Obligations.VoltDigitsCompletes := by
  refine fun s slot mv => ⟨fun hmv => ?_, fun hmv => ?_⟩
  · obtain ⟨hdigit, hsup, hle⟩ := Operands.voltDigit_eq slot mv 0 hmv
    refine ⟨_, _, exec_voltDigits slot mv s, hle, fun hslot => ?_, fun hslot => ?_, fun hslot => ?_, fun hslot => ?_⟩
    all_goals rw [hslot] at hdigit hsup
    · exact ⟨hdigit, hsup⟩
    · exact ⟨hdigit, hsup⟩
    · have htens : mv.toNat % 100 / 10 = mv.toNat % 1000 % 100 / 10 := by omega
      exact ⟨hdigit.trans htens, hsup⟩
    · have hones : mv.toNat % 10 = mv.toNat % 1000 % 10 := by omega
      exact ⟨hdigit.trans hones, hsup⟩
  · have hflag : decide (slot = 0) = decide (slot.toNat = 0) := decide_eq_decide.2 BitVec.toNat_inj.symm
    rw [exec_voltDigits, voltDigit_above hmv, hflag]

/-- Settles O19: the clamp is the minimum. -/
theorem clampCompletes : Obligations.ClampCompletes := fun _ v => ⟨_, rfl, Operands.clamp_toNat v⟩

/-- A digit CLOCK_DIGITS answers is the slot map's. -/
theorem clockDigits_digit {s t : State} {slot : BitVec 2} {tv : BitVec 13} {d : BitVec 4} {sup : Bool}
    (h : exec (.clockDigits slot tv) s = .next t) (hd : t.result = .digit d sup) :
    d.toNat = (slotMap .clock slot.toNat tv.toNat 0).1 := by
  have htv := clockDigits_next h
  rw [exec_clockDigits htv] at h
  cases h
  cases hd
  exact (Operands.clockDigit_eq slot tv 0 htv).1

/-- A digit VOLT_DIGITS answers in range is the slot map's. -/
theorem voltDigits_digit {s t : State} {slot : BitVec 2} {mv : BitVec 14} {d : BitVec 4} {sup : Bool}
    (hmv : mv.toNat ≤ 9999) (h : exec (.voltDigits slot mv) s = .next t) (hd : t.result = .digit d sup) :
    d.toNat = (slotMap .voltage slot.toNat 0 mv.toNat).1 := by
  rw [exec_voltDigits] at h
  cases h
  cases hd
  exact (Operands.voltDigit_eq slot mv 0 hmv).1

/-- The digits the slot map shows of a time recombine to it (95_test_vectors.md E1). -/
theorem slotMap_clock_recombines (tv mv : Nat) :
    ((slotMap .clock 0 tv mv).1 * 10 + (slotMap .clock 1 tv mv).1) * 60 + (slotMap .clock 2 tv mv).1 * 10 +
      (slotMap .clock 3 tv mv).1 = tv := by
  simp only [slotMap]
  omega

/-- The digits the slot map shows of the millivolts recombine to them (95_test_vectors.md E4). -/
theorem slotMap_voltage_recombines (tv mv : Nat) :
    (slotMap .voltage 0 tv mv).1 * 1000 + (slotMap .voltage 1 tv mv).1 * 100 + (slotMap .voltage 2 tv mv).1 * 10 +
      (slotMap .voltage 3 tv mv).1 = mv := by
  simp only [slotMap]
  omega

/-- Settles O20: the answered digits are the slot map's, which recombine. -/
theorem digitsRecombine : Obligations.DigitsRecombine := by
  intro s t0 t1 t2 t3 d0 d1 d2 d3 p0 p1 p2 p3 h0 h1 h2 h3
  refine ⟨fun tv e0 e1 e2 e3 => ?_, fun mv hmv e0 e1 e2 e3 => ?_⟩
  · rw [clockDigits_digit e0 h0, clockDigits_digit e1 h1, clockDigits_digit e2 h2, clockDigits_digit e3 h3]
    exact slotMap_clock_recombines _ _
  · rw [voltDigits_digit hmv e0 h0, voltDigits_digit hmv e1 h1, voltDigits_digit hmv e2 h2, voltDigits_digit hmv e3 h3]
    exact slotMap_voltage_recombines _ _

end Sys2Proof.Machine

/-! ### What every instruction changes (10_state.md R30 to R38, 30_encoding.md R74, 00_scope.md R7) -/

namespace Sys2Proof.Machine

open Sys2Proof.Safety

/-- A combinational function changes `result` only. -/
theorem exec_call_frame {i : Instr} {w : CallWord} {s t : State} (hw : encode i = .call w) (h : exec i s = .next t) :
    t = { s with result := t.result } := by
  cases i
  case encode => cases h; rfl
  case reservedEncD10111415 => cases h; rfl
  case reservedEncD12131415 => cases h; rfl
  case select =>
    obtain ⟨-, rfl⟩ := select_next h
    rfl
  case clockDigits =>
    rw [exec_clockDigits (clockDigits_next h)] at h
    cases h
    rfl
  case voltDigits => cases h; rfl
  case clampMv => cases h; rfl
  all_goals cases hw

/-- R44, R221: an operation of the block other than SYS_RESET answers in running states alone. -/
theorem exec_running {i : Instr} {s t : State} (hreset : i ≠ .sysReset) (hi : ∀ w : CallWord, encode i ≠ .call w)
    (h : exec i s = .next t) : Running s := by
  cases i
  case sysReset => exact absurd rfl hreset
  case modeSample => exact (operate_next (show execModeSample s = .next t from h)).1
  case rstEdge => exact (operate_next (show execRstEdge s = .next t from h)).1
  case tbReset => exact (operate_next (show execTbReset s = .next t from h)).1
  case tbTick => exact (operate_next (show execTbTick s = .next t from h)).1
  case refreshReq => exact (operate_next (show execRefreshReq s = .next t from h)).1
  case muxService => exact (operate_next (show execMuxService s = .next t from h)).1
  case serIdle => exact (operate_next (show execSerIdle s = .next t from h)).1
  case serSetup => exact (operate_next (show execSerSetup s = .next t from h)).1
  case serClkhi => exact (operate_next (show execSerClkhi s = .next t from h)).1
  case serLatlo => exact (operate_next (show execSerLatlo s = .next t from h)).1
  case serLathi => exact (operate_next (show execSerLathi s = .next t from h)).1
  case serStart seg sel => exact (operate_next (show execSerStart seg sel s = .next t from h)).1
  case reservedPhase5 => cases (reservedPhase_fault s).symm.trans h
  case reservedPhase6 => cases (reservedPhase_fault s).symm.trans h
  case reservedPhase7 => cases (reservedPhase_fault s).symm.trans h
  all_goals exact absurd rfl (hi _)

/-- An operation of the block changes only the registers of its row of the single-writer table (30_encoding.md R74). -/
theorem exec_block_frame {i : Instr} {s t : State} (hi : ∀ w : CallWord, encode i ≠ .call w) (h : exec i s = .next t) :
    t = Ops.commit i t s := by
  by_cases hreset : i = .sysReset
  · subst hreset
    cases h
    rfl
  have hrunning := exec_running hreset hi h
  have hof : ∀ {u}, exec i s = .next u → u = Ops.commit i u s → t = Ops.commit i t s := fun hu hframe => by
    cases hu.symm.trans h
    exact hframe
  cases i
  case sysReset => exact absurd rfl hreset
  case modeSample => exact hof (exec_modeSample hrunning) rfl
  case rstEdge => exact hof (exec_rstEdge hrunning) rfl
  case tbReset => exact hof (exec_tbReset hrunning) rfl
  case tbTick => exact hof (exec_tbTick hrunning) rfl
  case refreshReq => exact hof (exec_refreshReq hrunning) rfl
  case muxService =>
    obtain ⟨-, htable, -⟩ := muxService_next h
    exact hof (exec_muxService hrunning htable) rfl
  case serIdle => exact hof (exec_serIdle hrunning) rfl
  case serSetup => exact hof (exec_serSetup hrunning) rfl
  case serClkhi =>
    by_cases hn : s.bitcnt = 15
    · exact hof (exec_serClkhi_last hrunning hn) rfl
    · exact hof (exec_serClkhi hrunning hn) rfl
  case serLatlo => exact hof (exec_serLatlo hrunning) rfl
  case serLathi => exact hof (exec_serLathi hrunning) rfl
  case serStart seg sel => exact hof (exec_serStart hrunning seg sel) rfl
  case reservedPhase5 => cases (reservedPhase_fault s).symm.trans h
  case reservedPhase6 => cases (reservedPhase_fault s).symm.trans h
  case reservedPhase7 => cases (reservedPhase_fault s).symm.trans h
  all_goals exact absurd rfl (hi _)

theorem commit_call {i : Instr} {w : CallWord} (hw : encode i = .call w) (t s : State) : Ops.commit i t s = s := by
  cases i
  case encode | reservedEncD10111415 | reservedEncD12131415 | select | clockDigits | voltDigits | clampMv => rfl
  all_goals cases hw

/-- Every instruction that answers changes only the registers it writes, and `result`. -/
theorem exec_frame {i : Instr} {s t : State} (h : exec i s = .next t) :
    t = { Ops.commit i t s with result := t.result } := by
  by_cases hcall : ∃ w, encode i = .call w
  · obtain ⟨w, hw⟩ := hcall
    rw [commit_call hw]
    exact exec_call_frame hw h
  · have hblock := exec_block_frame (not_exists.1 hcall) h
    conv_rhs => rw [← hblock]

/-- Settles O22: the fields outside the registers are in no operation's writes. -/
theorem instructionsHoldTheRest : Obligations.InstructionsHoldTheRest := by
  intro i s t h
  have hcall : ∀ w : CallWord, encode i = .call w → t = { s with result := t.result } := fun w hw => exec_call_frame hw h
  have hblock : (∀ w : CallWord, encode i ≠ .call w) → t.result = s.result := fun hi => by
    rw [exec_block_frame hi h]
    rfl
  rw [exec_frame h] at hcall hblock ⊢
  exact ⟨rfl, rfl, rfl, rfl, rfl, rfl, hcall, hblock⟩

/-- A register an answering instruction does not write holds. -/
theorem exec_sameRegister {i : Instr} {s t : State} {f : Register} (h : exec i s = .next t) (hf : f ∉ Ops.writes i) :
    SameRegister f s t := by
  have hcommit : SameRegister f s { Ops.commit i t s with result := t.result } :=
    (sameRegister_commit_of_notMem hf t s).trans (by cases f <;> rfl)
  rwa [← exec_frame h] at hcommit

/-- The operations other than SYS_RESET whose row of the single-writer table names a register (30_encoding.md R74). -/
theorem writer_of_mem_writes {i : Instr} (hi : i ≠ .sysReset) :
    (.timeValue ∈ Ops.writes i → i = .tbReset ∨ i = .tbTick) ∧
    (.rstPrev ∈ Ops.writes i → i = .rstEdge) ∧
    (.modeQ ∈ Ops.writes i → i = .modeSample) ∧
    (.slot ∈ Ops.writes i → i = .muxService) ∧
    (.pending ∈ Ops.writes i → i = .refreshReq ∨ i = .muxService) ∧
    (.phase ∈ Ops.writes i → i = .muxService ∨ i = .serSetup ∨ i = .serClkhi ∨ i = .serLatlo ∨ i = .serLathi ∨
      ∃ seg sel, i = .serStart seg sel) ∧
    (.bitcnt ∈ Ops.writes i → i = .muxService ∨ i = .serClkhi ∨ ∃ seg sel, i = .serStart seg sel) ∧
    (.frame ∈ Ops.writes i → i = .muxService ∨ ∃ seg sel, i = .serStart seg sel) ∧
    (.outClk ∈ Ops.writes i → i = .serSetup ∨ i = .serClkhi ∨ i = .serLatlo) ∧
    (.outData ∈ Ops.writes i → i = .serSetup) ∧
    (.outLatch ∈ Ops.writes i → i = .serLatlo ∨ i = .serLathi) ∧
    .resetSeen ∉ Ops.writes i := by
  cases i
  case sysReset => exact absurd rfl hi
  all_goals simp [Ops.writes]

/-- Settles O21: a register that changed is in the writes of the instruction. -/
theorem registersHaveTheirWriters : Obligations.RegistersHaveTheirWriters := by
  intro i s t h hi
  obtain ⟨htime, hprev, hmode, hslot, hpending, hphase, hbitcnt, hframe, hclk, hdata, hlatch, hseen⟩ := writer_of_mem_writes hi
  have hholds : ∀ f ∉ Ops.writes i, copyRegister s t f = t := fun f hf => exec_sameRegister h hf
  have hwritten : ∀ {α : Type} (get : State → α) (f : Register), get (copyRegister s t f) = get s → get t ≠ get s →
      f ∈ Ops.writes i := fun get f hcopy hne => by_contra fun hf => hne (by rw [← hcopy, hholds f hf])
  exact ⟨fun hne => htime (hwritten State.timeValue _ rfl hne), fun hne => hprev (hwritten State.rstPrev _ rfl hne),
    fun hne => hmode (hwritten State.modeQ _ rfl hne), fun hne => hslot (hwritten State.slot _ rfl hne),
    fun hne => hpending (hwritten State.pending _ rfl hne), fun hne => hphase (hwritten State.phase _ rfl hne),
    fun hne => hbitcnt (hwritten State.bitcnt _ rfl hne), fun hne => hframe (hwritten State.frame _ rfl hne),
    fun hne => hclk (hwritten State.outClk _ rfl hne), fun hne => hdata (hwritten State.outData _ rfl hne),
    fun hne => hlatch (hwritten State.outLatch _ rfl hne), (congrArg State.resetSeen (hholds .resetSeen hseen)).symm⟩

/-- Settles O23: both answers are one function of the operands and the parameters. -/
theorem encodeAndSelectArePure : Obligations.EncodeAndSelectArePure := by
  rintro s s' t t' i (⟨d, sup, rfl⟩ | ⟨p, rfl⟩) hcfg h h'
  · rw [exec_encode] at h h'
    cases h
    cases h'
    exact ⟨by rw [hcfg], rfl, rfl⟩
  · obtain ⟨-, rfl⟩ := select_next h
    obtain ⟨-, rfl⟩ := select_next h'
    exact ⟨by simp only [hcfg], rfl, rfl⟩

end Sys2Proof.Machine

/-! ### Decoding and encoding (30_encoding.md R72, R77, R79) -/

namespace Sys2Proof.Machine

open Sys2Proof.Safety

/-- Settles O1: the ten words are closed. -/
theorem tableWordsDecode : Obligations.TableWordsDecode := by
  unfold Obligations.TableWordsDecode
  decide +kernel

/-! The bits each mask of the operation map keeps (30_encoding.md R77). -/

section masks

variable (cv : CondVector)

theorem mask_reset : cv &&& 0x010 = 0#5 ++ bit (cv.getLsbD 4) ++ 0#4 := by
  refine BitVec.eq_of_getLsbD_eq fun i hi => ?_
  simp only [BitVec.getLsbD_and, BitVec.getLsbD_append, BitVec.getLsbD_ofBool]
  interval_cases i <;> simp

theorem mask_edge : cv &&& 0x032 =
    0#4 ++ bit (cv.getLsbD 5) ++ bit (cv.getLsbD 4) ++ 0#2 ++ bit (cv.getLsbD 1) ++ 0#1 := by
  refine BitVec.eq_of_getLsbD_eq fun i hi => ?_
  simp only [BitVec.getLsbD_and, BitVec.getLsbD_append, BitVec.getLsbD_ofBool]
  interval_cases i <;> simp

theorem mask_tick : cv &&& 0x014 = 0#5 ++ bit (cv.getLsbD 4) ++ 0#1 ++ bit (cv.getLsbD 2) ++ 0#2 := by
  refine BitVec.eq_of_getLsbD_eq fun i hi => ?_
  simp only [BitVec.getLsbD_and, BitVec.getLsbD_append, BitVec.getLsbD_ofBool]
  interval_cases i <;> simp

theorem mask_refresh : cv &&& 0x018 = 0#5 ++ bit (cv.getLsbD 4) ++ bit (cv.getLsbD 3) ++ 0#3 := by
  refine BitVec.eq_of_getLsbD_eq fun i hi => ?_
  simp only [BitVec.getLsbD_and, BitVec.getLsbD_append, BitVec.getLsbD_ofBool]
  interval_cases i <;> simp

theorem mask_idle : cv &&& 0x3D0 =
    cv.extractLsb' 7 3 ++ bit (cv.getLsbD 6) ++ 0#1 ++ bit (cv.getLsbD 4) ++ 0#4 := by
  refine BitVec.eq_of_getLsbD_eq fun i hi => ?_
  simp only [BitVec.getLsbD_and, BitVec.getLsbD_append, BitVec.getLsbD_ofBool, BitVec.getLsbD_extractLsb']
  interval_cases i <;> simp

theorem mask_busy : cv &&& 0x390 = cv.extractLsb' 7 3 ++ 0#2 ++ bit (cv.getLsbD 4) ++ 0#4 := by
  refine BitVec.eq_of_getLsbD_eq fun i hi => ?_
  simp only [BitVec.getLsbD_and, BitVec.getLsbD_append, BitVec.getLsbD_ofBool, BitVec.getLsbD_extractLsb']
  interval_cases i <;> simp

end masks

theorem mem_timeOps_iff {i : Instr} {rstPrev rstBtnN secTick : Bool} : i ∈ timeOps rstPrev rstBtnN secTick ↔
    i = .tbReset ∧ (rstPrev && !rstBtnN) = true ∨ i = .tbTick ∧ secTick = true ∧ (rstPrev && !rstBtnN) = false := by
  unfold timeOps
  cases rstPrev && !rstBtnN <;> cases secTick <;> simp

theorem mem_reqOps_iff {i : Instr} {refreshTick : Bool} :
    i ∈ reqOps refreshTick ↔ i = .refreshReq ∧ refreshTick = true := by
  unfold reqOps
  cases refreshTick <;> simp

/-- Whether a condition vector fires an operation, group by group (30_encoding.md R74). -/
theorem mem_fired_iff (cv : CondVector) (i : Instr) : i ∈ fired cv ↔
    if cv.getLsbD 4 then i = .sysReset
    else i = .modeSample ∨ i = .rstEdge ∨ i ∈ timeOps (cv.getLsbD 5) (cv.getLsbD 1) (cv.getLsbD 2) ∨
      i ∈ reqOps (cv.getLsbD 3) ∨ i = serOp (Ops.phaseOf (cv.extractLsb' 7 3)) (cv.getLsbD 6) := by
  rw [fired_eq_of_bits]
  cases cv.getLsbD 4 <;> simp

/-- No SER operation is one of another group. -/
theorem ne_serOp : ∀ (c : BitVec 3) (q : Bool),
    .sysReset ≠ serOp (Ops.phaseOf c) q ∧ .modeSample ≠ serOp (Ops.phaseOf c) q ∧
    .rstEdge ≠ serOp (Ops.phaseOf c) q ∧ .tbReset ≠ serOp (Ops.phaseOf c) q ∧ .tbTick ≠ serOp (Ops.phaseOf c) q ∧
    .refreshReq ≠ serOp (Ops.phaseOf c) q := by decide

/-- Settles O3: each row's mask keeps the bits its group looks at, and on those few bits the row is a closed check. -/
theorem cvRowsFireExactly : Obligations.CvRowsFireExactly := by
  intro cv
  rw [mask_reset, mask_edge, mask_tick, mask_refresh, mask_idle, mask_busy]
  simp only [mem_fired_iff, mem_timeOps_iff, mem_reqOps_iff, ne_serOp, reduceCtorEq, false_and, true_and, false_or,
    or_false, or_true]
  generalize cv.extractLsb' 7 3 = c, cv.getLsbD 6 = q, cv.getLsbD 5 = p, cv.getLsbD 4 = r, cv.getLsbD 3 = f,
    cv.getLsbD 2 = s, cv.getLsbD 1 = b
  refine ⟨?_, ?_, ?_, ?_, ?_, ?_, ?_⟩
  · revert r; decide
  · revert r; decide
  · revert r; decide
  · revert p r b; decide
  · revert p r s b; decide
  · revert r f; decide
  · revert c q r; decide

/-- Every CV operation is among the operations of its own word. -/
theorem mem_decode_encode_cv : ∀ i ∈ cvRows.map CvRow.op, i ∈ decode (encode i) := by decide

/-- What the ENC word of a digit and a flag calls: the reserved rows split the digits above 9 (log 14). -/
theorem decodeCall_enc : ∀ (d : BitVec 4) (sup : Bool), decodeCall (.enc (bit sup ++ d)) =
    if d.toNat ≤ 9 then .encode d sup
    else if d.toNat = 12 ∨ d.toNat = 13 then .reservedEncD12131415 d sup else .reservedEncD10111415 d sup := by decide

theorem decodeCall_tvd (slot : BitVec 2) (tv : BitVec 13) : decodeCall (.tvd (slot ++ tv)) = .clockDigits slot tv := by
  rw [decodeCall, BitVec.extractLsb'_append_eq_left, BitVec.extractLsb'_append_eq_right]

theorem decodeCall_mvd (slot : BitVec 2) (mv : BitVec 14) : decodeCall (.mvd (slot ++ mv)) = .voltDigits slot mv := by
  rw [decodeCall, BitVec.extractLsb'_append_eq_left, BitVec.extractLsb'_append_eq_right]

/-- A well-formed instruction is among the operations of its own word. -/
theorem mem_decode_encode {i : Instr} (hi : i.wellFormed = true) : i ∈ decode (encode i) := by
  cases i
  case encode d sup =>
    have hd : d.toNat ≤ 9 := of_decide_eq_true hi
    rw [encode, decode, decodeCall_enc, if_pos hd]
    exact List.mem_singleton_self _
  case reservedEncD10111415 d sup =>
    have hd : d.toNat = 10 ∨ d.toNat = 11 ∨ d.toNat = 14 ∨ d.toNat = 15 := of_decide_eq_true hi
    rw [encode, decode, decodeCall_enc, if_neg (by omega), if_neg (by omega)]
    exact List.mem_singleton_self _
  case reservedEncD12131415 d sup =>
    have hd : d.toNat = 12 ∨ d.toNat = 13 := of_decide_eq_true hi
    rw [encode, decode, decodeCall_enc, if_neg (by omega), if_pos hd]
    exact List.mem_singleton_self _
  case select => exact List.mem_singleton_self _
  case clockDigits slot tv =>
    rw [encode, decode, decodeCall_tvd]
    exact List.mem_singleton_self _
  case voltDigits slot mv =>
    rw [encode, decode, decodeCall_mvd]
    exact List.mem_singleton_self _
  case clampMv => exact List.mem_singleton_self _
  case serStart => exact List.mem_singleton_self _
  all_goals exact mem_decode_encode_cv _ (by decide)

/-- Every ENC word calls a well-formed function whose word it is. -/
theorem encode_decodeCall_enc : ∀ w : BitVec 5,
    (decodeCall (.enc w)).wellFormed = true ∧ encode (decodeCall (.enc w)) = .call (.enc w) := by decide

/-- Every operand word calls a well-formed function whose word it is. -/
theorem encode_decodeCall (w : CallWord) : (decodeCall w).wellFormed = true ∧ encode (decodeCall w) = .call w := by
  cases w with
  | enc w => exact encode_decodeCall_enc w
  | sel w => exact ⟨rfl, rfl⟩
  | tvd w =>
    have hw : w.extractLsb' 13 2 ++ w.extractLsb' 0 13 = w := by
      rw [BitVec.extractLsb'_append_extractLsb'_eq_extractLsb' (by rfl), BitVec.extractLsb'_eq_self]
    exact ⟨rfl, by rw [decodeCall, encode, hw]⟩
  | mvd w =>
    have hw : w.extractLsb' 14 2 ++ w.extractLsb' 0 14 = w := by
      rw [BitVec.extractLsb'_append_extractLsb'_eq_extractLsb' (by rfl), BitVec.extractLsb'_eq_self]
    exact ⟨rfl, by rw [decodeCall, encode, hw]⟩
  | mv w => exact ⟨rfl, rfl⟩

/-- Settles O4: a function's word names one operation, so a well-formed one is that operation. -/
theorem decodeEncodeAgree : Obligations.DecodeEncodeAgree := by
  refine ⟨fun i hi => mem_decode_encode hi, fun i w hi hw => ?_, fun seg sel => rfl, encode_decodeCall,
    fun d sup hd => ?_⟩
  · have hmem := mem_decode_encode hi
    rw [hw] at hmem ⊢
    rw [decode, List.mem_singleton.1 hmem]
  · rw [encode, decode, decodeCall_enc, if_neg (by omega), if_neg (by omega)]

/-! ### The step, and the table word put where it fetches (30_encoding.md R70, log 13) -/

/-- Settles O24: the three shapes of the queue. -/
theorem stepRunsDecodedOperations : Obligations.StepRunsDecodedOperations := by
  refine fun s => ⟨fun w rest h => ?_, fun sw rest h => ?_, fun h => ?_⟩
  · rw [step, Cycle.advance, h]
  · rw [step, Cycle.advance, Cycle.sampled, h]
  · rw [step, Cycle.advance, Cycle.sampled, h]

/-- The operation that stands for a word is one the word names. -/
theorem representative_mem {nbits : Nat} {ops : List Instr} {i : Instr} (h : representative nbits ops = some i) :
    i ∈ ops := by
  unfold representative at h
  split at h
  case h_1 j hfind =>
    cases h
    exact List.mem_of_find?_eq_some hfind
  case h_2 =>
    split at h
    · exact List.mem_of_getLast? h
    · exact List.mem_of_head? h

/-- A table word of at least one bit reads as an ENC word or a condition vector. -/
theorem untaggedWord_cases {nbits w : Nat} {t : TableWord} (hbits : 0 < nbits) (h : untaggedWord nbits w = some t) :
    (∃ c, t = .call c) ∨ ∃ cv, t = .cv cv := by
  unfold untaggedWord at h
  rw [if_neg (by omega)] at h
  split at h
  · cases h
  · split at h
    · cases h
      exact .inl ⟨_, rfl⟩
    · unfold readWord at h
      split at h
      · cases h
        exact .inr ⟨_, rfl⟩
      · cases h

/-- A placed condition vector is the one of the next cycle. -/
theorem conditionVector_placeWord (s : State) (cv : CondVector) :
    Ops.conditionVector (Cycle.sampled (Ops.placeWord s (.cv cv))) = cv := by
  have hinp : (Cycle.sampled (Ops.placeWord s (.cv cv))).inp =
      { sysRst := cv.getLsbD 4, refreshTick := cv.getLsbD 3, secTick := cv.getLsbD 2, rstBtnN := cv.getLsbD 1
        modeBtnN := cv.getLsbD 0, mvIn := 0 } := by
    refine (stimulusWordSetsPorts 0 (cv.extractLsb' 0 5)).trans ?_
    simp
  rw [Ops.conditionVector, hinp]
  exact (condVector_eq_fields cv).symm

/-- Settles O27: a placed condition vector is the next cycle's, and a placed call is the next entry of the queue. -/
theorem fetchWordIsRunNext : Obligations.FetchWordIsRunNext := by
  intro s nbits w i hbits hdecode
  obtain ⟨t, hword, hrep⟩ := Option.bind_eq_some_iff.1 hdecode
  have hmem : i ∈ decode t := representative_mem hrep
  have hplace : s.withFetchWord nbits w = Ops.placeWord s t := by rw [State.withFetchWord, hword]
  rw [hplace]
  obtain ⟨c, rfl⟩ | ⟨cv, rfl⟩ := untaggedWord_cases hbits hword
  · obtain ⟨hcall, -⟩ := stepRunsDecodedOperations (Ops.placeWord s (.call c))
    rw [hcall c s.stimulus rfl, ← List.mem_singleton.1 hmem]
    exact .inr rfl
  · exact .inl ⟨rfl, by rw [conditionVector_placeWord]; exact hmem⟩

end Sys2Proof.Machine
